-- ==== Sys2Proof/Word.lean ====
section
/-! DEFINITION. The widths of the block's values: bytes of the intensity store and of the link, 16-bit pattern words. -/

namespace Sys2Proof

/-- An intensity, a received byte, an 8-bit counter (R8, R12). Unsigned (R14). -/
abbrev Byte := BitVec 8

/-- A bit-plane word, the shift register, the output latch (R8, R19). -/
abbrev Word := BitVec 16

/-- A layer (R8). -/
abbrev Layer := Fin 4

/-- A displayed bit-plane, bits 0 to 6 (R8). -/
abbrev Plane := Fin 7

/-- A position `p = 4r + c` within a layer, and equally a shift-register output (R8, R15). -/
abbrev Pos := Fin 16

end Sys2Proof
end

