-- ==== Sys2Proof/Config.lean ====
section
/-! DEFINITION. The configuration parameters of R9, the constraints R9 puts on them, the values the source leaves open, and the events of the agents of R11 with their free value. -/

namespace Sys2Proof

/-- The parameters of R9. A model takes each as an argument, and none changes while the block runs.
`tickTime` and `baud` are names of a duration and of a link format: timing only, no rule reads them (log 17). -/
structure Config where
  /-- `WIRING`: entry p is the physical shift-register output of layer position p. -/
  wiring : Vector Pos 16
  /-- `LAYER_LINE`: entry L names the physical enable line of layer L. -/
  layerLine : Vector Nat 4
  /-- `COUNTER_PERIOD`. -/
  counterPeriod : Nat
  /-- `COUNTER_WIDTH`, in bits. -/
  counterWidth : Nat
  /-- `TICK_TIME`. -/
  tickTime : Nat
  /-- `RESET_ON`. -/
  resetOn : Bool
  /-- `BUTTON_FLOOR_RETRIGGER`. -/
  floorRetrigger : Bool
  /-- `MAX_BRIGHT`. -/
  maxBright : Byte
  /-- `BAUD`. -/
  baud : Nat
deriving DecidableEq, Repr

/-- R9, R65: `WIRING` is a bijection of 0..15: no output is given to two positions. -/
def Config.wiringOk (c : Config) : Bool := decide c.wiring.toList.Nodup

/-- The constraint column of R9. -/
def Config.valid (c : Config) : Bool :=
  c.wiringOk && decide c.layerLine.toList.Nodup && decide (444 < c.counterPeriod)
    && decide (c.counterPeriod ≤ 2 ^ c.counterWidth) && (c.maxBright &&& 0x7F#8 == 0x7F#8)

/-- A configuration the model admits: R65 gives any other no meaning. -/
abbrev ValidConfig := { c : Config // c.valid = true }

/-- `WIRING(p)`. -/
def Config.wire (c : Config) (p : Pos) : Pos := c.wiring[p]

/-- `LAYER_LINE(L)`. -/
def Config.line (c : Config) (L : Layer) : Nat := c.layerLine[L]

/-- FREE VALUE (R9, N13; log 4): the wiring of State.reset's machine, some bijection of 0..15. -/
opaque Config.openWiring : Equiv.Perm Pos

/-- FREE VALUE (R9, N1; log 4): State.reset's machine drives layer L by the line this gives L. Every injective
assignment of four lines is the restriction of such a permutation. -/
opaque Config.openLines : Equiv.Perm Nat

/-- FREE VALUE (R9, D29; log 4): how many bits the counter has above the nine that R10 derives. -/
opaque Config.openExtraBits : Nat

/-- FREE VALUE (R9, N2; log 4): the name of the tick's duration. -/
opaque Config.openTickTime : Nat

/-- FREE VALUE (R9, N3; log 4): the name of the link format. -/
opaque Config.openBaud : Nat

/-- The configuration of State.reset: R9's default where it gives one, a free value where it gives none (log 4). -/
def Config.machine : Config where
  wiring := Vector.ofFn Config.openWiring
  layerLine := Vector.ofFn fun L : Layer => Config.openLines L.val
  counterPeriod := 508
  counterWidth := 9 + Config.openExtraBits
  tickTime := Config.openTickTime
  resetOn := true
  floorRetrigger := true
  maxBright := 0xFF#8
  baud := Config.openBaud

theorem Config.machine_valid : Config.machine.valid = true := by
  have hw : (508 : Nat) ≤ 2 ^ (9 + Config.openExtraBits) := by
    have h : 0 < 2 ^ Config.openExtraBits := Nat.two_pow_pos _
    rw [Nat.pow_add]
    omega
  have hn : (List.ofFn Config.openWiring).Nodup := List.nodup_ofFn.mpr Config.openWiring.injective
  have hl : (List.ofFn fun L : Layer => Config.openLines L.val).Nodup :=
    List.nodup_ofFn.mpr fun a b h => Fin.ext (Config.openLines.injective h)
  simp only [Config.valid, Config.wiringOk, Config.machine, Vector.toList_ofFn, hn, hl, hw,
    decide_true, Bool.true_and]
  decide

/-- What happens next: which agent of R11 takes a turn, and what the environment supplies with it. -/
inductive Event where
  /-- `FG` takes a turn. `draw` is the oracle's answer if the micro-step draws (R103; log 11). -/
  | fg (draw : BitVec 2)
  /-- `RXH` takes a turn. -/
  | rxh
  /-- `CTR` ticks. -/
  | tick
  /-- `HOST` delivers byte `v`. -/
  | host (v : Byte)
  /-- `BTN` sets the input level: true is released (R125: active low). -/
  | btn (level : Bool)
deriving DecidableEq, Repr, Inhabited

/-- FREE VALUE (R11, R47, R75, R135; log 1): the event at each place of a run that State's `agenda` does not fix. -/
opaque Config.freeEvent : Nat → Event

end Sys2Proof
end

