-- ==== Sys2Proof/Machine/State.lean ====
section
/-! DEFINITION. The architectural state of R17 to R33, the positions of the micro-program (R23, R74), the reasons a machine can stop, and the reset state (R145). -/

namespace Sys2Proof.Machine

open Sys2Proof

/-- R131: the block has no synchronous exception and no fault, and a step has no fault outcome for any admitted state.
So there is no reason to fault. -/
inductive Fault where
deriving DecidableEq, Repr

/-- Why the model gives no meaning. -/
inductive Refusal where
  /-- The instruction has no meaning in the model yet. Raised by no arm: every row has its meaning. Safe. -/
  | notModelled (mnemonic : String)
  /-- R65, R131: the configuration breaks a constraint of R9, a wiring that is no bijection among them. Raised by
  `powerUp` alone. Safe: no state of such a machine exists in the model. -/
  | invalidConfiguration
deriving DecidableEq, Repr

/-- Where a button check runs (R126): in the layer-2 task of a frame, or in the idle mode. -/
inductive Ctx where
  | frame
  | idle
deriving DecidableEq, Repr

/-- The micro-step labels, the values of `seq` (R23, R74). The block fetches nothing: this is no address (R50, R61). -/
inductive MicroStep where
  | loop
  | fMask
  | fShift (b : Plane) (l : Layer)
  | fWait (b : Plane) (l : Layer)
  | fOff (b : Plane) (l : Layer)
  | fLatch (b : Plane) (l : Layer)
  | fOn (b : Plane) (l : Layer)
  | fUnmask
  | t0Read
  | t0Write
  | t1Gate
  | aBegin
  | aSpk (i : Fin 64)
  | aSwp (i : Fin 64)
  | aSwpEnd
  | aChs (L : Layer) (k : Fin 2)
  | aChsEnd
  | aFil (i : Fin 64)
  | bSample (k : Ctx)
  | bOff (k : Ctx)
  | bOn (k : Ctx)
  | bClr (k : Ctx) (i : Fin 64)
  | bARead (k : Ctx)
  | bAWrite (k : Ctx)
  | rb (l : Layer) (p : Pos)
  | iOff
  | iWait
deriving DecidableEq, Repr

/-- The silent failure events of R132. They change no state and no rule reads them. -/
inductive SilentEvent where
  /-- Code 1: byte `v` arrived while one was pending, and is lost. -/
  | rxOverrun (v : Byte)
  /-- Code 2: a reserved control opcode was consumed. -/
  | unknownOpcode (o : BitVec 6)
  /-- Code 3: a slot's wait was taken late, at counter value `t`. -/
  | slotLate (b : Plane) (l : Layer) (t : Nat)
deriving DecidableEq, Repr

/-- The intensity store as cells (address, intensity) in one canonical form (`Memory.wf`). -/
abbrev Memory := List Host.Cell

/-- What an unlisted address reads as: the reset contents of the store (R18, R145). -/
def Memory.unlisted : Byte := 0x00#8

/-- The cells from address `lo` on are strictly rising, inside 0..63 (R37), and none holds the unlisted value. -/
def Memory.wfFrom (lo : Nat) : Memory → Bool
  | [] => true
  | c :: m => decide (lo ≤ c.1) && decide (c.1 < 64) && (c.2 != Memory.unlisted) && Memory.wfFrom (c.1 + 1) m

/-- The canonical form: equal stores are equal lists. -/
def Memory.wf (m : Memory) : Bool := Memory.wfFrom 0 m

/-- The whole machine. INVENTORY.md, '## State', lists the rule and the reset value of every field. -/
structure State where
  /-- The parameters of R9 (log 5). Written by no step. -/
  cfg : ValidConfig
  /-- `I`, the intensity store (R18, R37). -/
  mem : Memory
  /-- `PL[l][b]`, the bit-plane buffer (R19). -/
  pl : Vector (Vector Word 7) 4
  /-- `sr`, the shift register (R20). -/
  sr : Word
  /-- `out`, the output latch (R21). -/
  out : Word
  /-- `en[0..3]`, the layer enables (R22). -/
  en : Vector Bool 4
  /-- `seq`, the sequencer position (R23). -/
  seq : MicroStep
  /-- `ie`, the interrupt enable (R24). -/
  ie : Bool
  /-- `tcnt`, the free-running counter (R25). -/
  tcnt : Nat
  /-- `tov`, the rollover flag (R25). -/
  tov : Bool
  /-- `on`, the power flag (R26). -/
  on : Bool
  /-- `animation_id` (R27). -/
  animationId : Fin 4
  /-- `animation_state` (R28). -/
  animationState : Byte
  /-- `usart_timeout`, the link-activity counter (R29). -/
  usartTimeout : Byte
  /-- `button_timeout`, the button hold counter (R30). -/
  buttonTimeout : Byte
  /-- `cursor` (R31). -/
  cursor : BitVec 6
  /-- `rx_buf`, the receive holding register (R32). -/
  rxBuf : Byte
  /-- `rx_full`, the interrupt's pending bit (R32, R133). -/
  rxFull : Bool
  /-- `tmp`, foreground scratch (R33). -/
  tmp : Byte
  /-- `anim_s`, foreground scratch (R33). -/
  animS : Byte
  /-- `btn`, the button input level (R125): true is released. -/
  btn : Bool
  /-- The observation trace, oldest event first (R13, R132; log 8). -/
  trace : List SilentEvent
  /-- R132's flag: a tick took `tcnt` past 0 while `seq = F_WAIT(0,0)` (log 8). -/
  zeroMissed : Bool
  /-- The coming events, oldest first (log 1). -/
  agenda : List Event
  /-- Where the next free event is drawn (log 1). -/
  freeIdx : Nat
deriving DecidableEq, Repr

/-- The values R145 leaves unspecified (U1 to U5): a model draws each freely. -/
structure Unspecified where
  sr : Word
  out : Word
  rxBuf : Byte
  tmp : Byte
  animS : Byte
  btn : Bool
deriving DecidableEq, Repr

/-- The state right after a reset (R145, R146), for any admitted configuration and any unspecified values. -/
def State.resetWith (c : ValidConfig) (u : Unspecified) : State where
  cfg := c
  mem := []
  pl := Vector.replicate 4 (Vector.replicate 7 0#16)
  sr := u.sr
  out := u.out
  en := Vector.replicate 4 false
  seq := .loop
  ie := true
  tcnt := 0
  tov := false
  on := c.val.resetOn
  animationId := 0
  animationState := 0#8
  usartTimeout := 0#8
  buttonTimeout := 255#8
  cursor := 0#6
  rxBuf := u.rxBuf
  rxFull := false
  tmp := u.tmp
  animS := u.animS
  btn := u.btn
  trace := []
  zeroMissed := false
  agenda := []
  freeIdx := 0

/-- DESIGN CHOICE (log 3, log 7): the unspecified values of the one state `reset`: zero, and the button released. -/
def Unspecified.chosen : Unspecified where
  sr := 0#16
  out := 0#16
  rxBuf := 0#8
  tmp := 0#8
  animS := 0#8
  btn := true

/-- The machine right after reset, with the configuration of log 4 and the chosen unspecified values. -/
def State.reset : State := State.resetWith ⟨Config.machine, Config.machine_valid⟩ Unspecified.chosen

end Sys2Proof.Machine
end

