-- ==== Sys2Proof/Machine/Ops.lean ====
section
/-! DEFINITION. The named operations over the intensity store, the bit-plane words, the enables, the trace and the receive register, and the entry into and return from the one interrupt. -/

namespace Sys2Proof.Machine

open Sys2Proof

/-- The byte at address `a` of the cells; an unlisted address reads as the reset contents. -/
def Memory.read : Memory → Nat → Byte
  | [], _ => Memory.unlisted
  | c :: m, a => if c.1 = a then c.2 else Memory.read m a

/-- The cells with one more cell put in address order. -/
def Memory.insert (a : Nat) (v : Byte) : Memory → Memory
  | [] => [(a, v)]
  | c :: m => if a < c.1 then (a, v) :: c :: m else c :: Memory.insert a v m

/-- One byte written, keeping the canonical form: writing the unlisted value removes the cell. -/
def Memory.write (m : Memory) (a : Nat) (v : Byte) : Memory :=
  let others := m.filter fun c => c.1 != a
  if v = Memory.unlisted then others else Memory.insert a v others

/-- The bulk clear of R39: 64 writes of 0 in ascending address order. -/
def Memory.clear (m : Memory) : Memory := (List.range 64).foldl (fun m a => m.write a 0x00#8) m

/-- `MemRead(a, 1)`, with the index masking of R38. -/
def State.read (s : State) (a : Nat) : Byte := s.mem.read (a % 64)

/-- `MemWrite(a, 1, v)`, with the index masking of R38. -/
def State.write (s : State) (a : Nat) (v : Byte) : State := { s with mem := s.mem.write (a % 64) v }

/-- "bulk-clear-to-zero" (R39). -/
def State.clearStore (s : State) : State := { s with mem := s.mem.clear }

/-- `seq <- m` (R13). -/
def State.goto (s : State) (m : MicroStep) : State := { s with seq := m }

/-- `record E(info)` (R13): the event is appended to the observation trace. -/
def State.record (s : State) (e : SilentEvent) : State := { s with trace := s.trace ++ [e] }

/-- `w[k] <- x`. -/
def setBit (w : Word) (k : Pos) (x : Bool) : Word :=
  (w &&& ~~~(1#16 <<< k.val)) ||| (if x then 1#16 <<< k.val else 0#16)

/-- Bit `k` of each of a layer's seven words takes the like-numbered bit of `v` (the inner loop of R66). -/
def setPlanes (ws : Vector Word 7) (k : Pos) (v : Byte) : Vector Word 7 :=
  Vector.ofFn fun b : Plane => setBit ws[b] k (v.getLsbD b.val)

/-- `PL[l][b]`. -/
def State.plane (s : State) (l : Layer) (b : Plane) : Word := s.pl[l][b]

/-- `en[L]`. -/
def State.enabled (s : State) (L : Layer) : Bool := s.en[L]

/-- `en[L] <- x`. -/
def State.setEnable (s : State) (L : Layer) (x : Bool) : State := { s with en := s.en.set L.val x }

/-- TAKING THE INTERRUPT (R111, R136). The block has no exception (R131): serial receive is its one entry. It consumes
the pending byte and saves nothing: `seq`, `ie` and the scratch registers stay as they are, so nothing is restored. -/
def State.takeByte (s : State) : Byte × State := (s.rxBuf, { s with rxFull := false })

/-- THE RETURN (R137): the foreground resumes at the same `seq`, with `ie` as it was. -/
def State.returnFromHandler (s : State) : State := s

end Sys2Proof.Machine
end

