-- ==== Sys2Proof/Machine/Operands.lean ====
section
/-! DEFINITION. How addresses, positions, successor layers, thresholds and animation indices are computed. -/

namespace Sys2Proof.Machine

open Sys2Proof

/-- `a = 16L + p` (R15, R37). -/
def voxelAddr (L : Layer) (p : Pos) : Nat := 16 * L.val + p.val

/-- `p = 4r + c` (R15, R37). -/
def positionOf (r c : Fin 4) : Pos := ⟨4 * r.val + c.val, by omega⟩

/-- `a[5:4]` (R37). -/
def layerOf (a : Fin 64) : Layer := ⟨a.val / 16, by omega⟩

/-- `a[3:2]` (R37). -/
def rowOf (a : Fin 64) : Fin 4 := ⟨a.val / 4 % 4, by omega⟩

/-- `a[1:0]` (R37). -/
def colOf (a : Fin 64) : Fin 4 := ⟨a.val % 4, by omega⟩

/-- The next index of a loop over 0..n-1, or none after the last. -/
def nextIn {n : Nat} (i : Fin n) : Option (Fin n) :=
  if h : i.val + 1 < n then some ⟨i.val + 1, h⟩ else none

/-- The outgoing layer `(l + 3) mod 4` of a layer switch (R93, D21). -/
def outgoing (l : Layer) : Layer := ⟨(l.val + 3) % 4, by omega⟩

/-- `T(l,b) = 4(2^b - 1) + 2^b l` (R72). -/
def threshold (l : Layer) (b : Plane) : Nat := 4 * (2 ^ b.val - 1) + 2 ^ b.val * l.val

/-- The Sweep state `s` of R104: a leftover of 14 or more counts as 0 (D16). -/
def sweepState (animS : Byte) : Nat := if 14 ≤ animS.toNat then 0 else animS.toNat

/-- The column or row index `c` of R104. -/
def sweepIndex (s : Nat) : Nat := if s ≤ 6 then min s (6 - s) else min (s - 7) (6 - (s - 7))

/-- `lit` of R104: the selected column in states 0 to 6, the selected row in states 7 to 13. -/
def sweepLit (s : Nat) (i : Fin 64) : Bool :=
  if s ≤ 6 then decide ((colOf i).val = sweepIndex s) else decide ((rowOf i).val = sweepIndex s)

/-- The Chase state `s` of R106. -/
def chaseState (animS : Byte) : Nat := animS.toNat % 16

/-- The address `A_CHS(L,0)` clears (R106). -/
def chaseCleared (L : Layer) (s : Nat) : Nat := 16 * L.val + (s + 15) % 16

/-- The address `A_CHS(L,1)` sets (R106). -/
def chaseLit (L : Layer) (s : Nat) : Nat := 16 * L.val + s

/-- `animation_id + 1`, modulo 4 (R27, R116, R127). -/
def nextAnimation (id : Nat) : Fin 4 := ⟨(id + 1) % 4, by omega⟩

/-- `EXIT(k)` of R126. -/
def buttonExit : Ctx → MicroStep
  | .frame => .rb 2 0
  | .idle => .loop

/-- The first micro-step after `F_ON(6,l)`: `TASK(l)`, and `RB(3,0)` where the task is empty (R74, R76, R83). -/
def firstOfTask (l : Layer) : MicroStep :=
  if l = 0 then .t0Read else if l = 1 then .t1Gate else if l = 2 then .bSample .frame else .rb 3 0

/-- The successor of `F_ON(b,l)` (R76). -/
def afterOn (b : Plane) (l : Layer) : MicroStep :=
  match nextIn b with
  | none => firstOfTask l
  | some b' =>
    match nextIn l with
    | some l' => .fShift b l'
    | none => if b = 0 then .fUnmask else .fShift b' 0

/-- The successor of the rebuild of layer `l` (R76). -/
def afterRebuild (l : Layer) : MicroStep :=
  match nextIn l with
  | some l' => .fShift 6 l'
  | none => .loop

/-- The first generator micro-step for an `animation_id` (R101). -/
def firstOfAnimation (id : Fin 4) : MicroStep :=
  if id = 0 then .aSpk 0 else if id = 1 then .aSwp 0 else if id = 2 then .aChs 0 0 else .aFil 0

end Sys2Proof.Machine
end

