-- ==== Sys2Proof/Machine/Animation.lean ====
section
/-! DEFINITION. The animation tasks (R99 to R109): one voxel write a micro-step. -/

namespace Sys2Proof.Machine

open Sys2Proof

/-- `A_BEGIN` (R101). -/
def stepABegin (s : State) : State :=
  ({ s with animS := s.animationState } : State).goto (firstOfAnimation s.animationId)

/-- The byte a generator writes: `MAX_BRIGHT` or 0x00 (R100). -/
def brightness (s : State) (lit : Bool) : Byte := if lit then s.cfg.val.maxBright else 0x00#8

/-- `A_SPK(i)` (R103): `draw` is the oracle's answer. -/
def stepASpk (i : Fin 64) (draw : BitVec 2) (s : State) : State :=
  (s.write i.val (brightness s (draw == 0#2))).goto
    (match nextIn i with
    | some j => .aSpk j
    | none => .rb 1 0)

/-- `A_SWP(i)` (R104). -/
def stepASwp (i : Fin 64) (s : State) : State :=
  (s.write i.val (brightness s (sweepLit (sweepState s.animS) i))).goto
    (match nextIn i with
    | some j => .aSwp j
    | none => .aSwpEnd)

/-- `A_SWP_END` (R104). -/
def stepASwpEnd (s : State) : State :=
  ({ s with animationState := BitVec.ofNat 8 ((sweepState s.animS + 1) % 14) } : State).goto (.rb 1 0)

/-- `A_CHS(L,k)` (R106): k = 0 clears the previous position, k = 1 sets the current one. -/
def stepAChs (L : Layer) (k : Fin 2) (s : State) : State :=
  if k = 0 then (s.write (chaseCleared L (chaseState s.animS)) 0x00#8).goto (.aChs L 1)
  else (s.write (chaseLit L (chaseState s.animS)) s.cfg.val.maxBright).goto
    (match nextIn L with
    | some L' => .aChs L' 0
    | none => .aChsEnd)

/-- `A_CHS_END` (R106). -/
def stepAChsEnd (s : State) : State :=
  ({ s with animationState := BitVec.ofNat 8 ((chaseState s.animS + 1) % 16) } : State).goto (.rb 1 0)

/-- `A_FIL(i)` (R108). -/
def stepAFil (i : Fin 64) (s : State) : State :=
  (s.write i.val s.cfg.val.maxBright).goto
    (match nextIn i with
    | some j => .aFil j
    | none => .rb 1 0)

end Sys2Proof.Machine
end

