-- ==== Sys2Proof/Machine/Flags.lean ====
section
/-! DEFINITION. The one-bit conditions: what is enabled, what a wait and a gate pass, when a slot is late, the saturating counters and the button's thresholds. -/

namespace Sys2Proof.Machine

open Sys2Proof

/-- A decrement that stops at 0 (R81, R126). -/
def satDec (x : Byte) : Byte := if x = 0#8 then 0#8 else x - 1#8

/-- `RXH` is enabled iff `ie = 1` and `rx_full = 1` (R111, R134). -/
def rxhEnabled (s : State) : Bool := s.ie && s.rxFull

/-- The guard of `F_WAIT(b,l)` (R78): equality with 0 for (0,0), at least T(l,b) for every other slot. -/
def waitPasses (b : Plane) (l : Layer) (tcnt : Nat) : Bool :=
  if b = 0 ∧ l = 0 then tcnt == 0 else decide (threshold l b ≤ tcnt)

/-- `FG` has a step: every micro-step but a wait whose guard is false (R13, R78, R86). -/
def fgReady (s : State) : Bool :=
  match s.seq with
  | .fWait b l => waitPasses b l s.tcnt
  | .iWait => s.tov
  | _ => true

/-- A wait that passes is late (R132, code 3): past its threshold, or for (0,0) with the flag R132 asks for set. -/
def slotIsLate (s : State) (b : Plane) (l : Layer) : Bool :=
  if b = 0 ∧ l = 0 then s.zeroMissed else decide (threshold l b < s.tcnt)

/-- The gate of the animation tick (R82). -/
def gatePasses (s : State) : Bool := s.usartTimeout == 0#8 && s.on

/-- `ie = 0` exactly at these positions (R36 e): after `F_MASK` has executed and before `F_UNMASK` has. -/
def MicroStep.masked : MicroStep → Bool
  | .fShift b _ => b == 0
  | .fWait b _ => b == 0
  | .fOff b _ => b == 0
  | .fLatch b _ => b == 0
  | .fOn b _ => b == 0
  | .fUnmask => true
  | _ => false

/-- What a button check decides (R126). -/
inductive ButtonAction where
  | exit
  | off
  | on
  | clear
deriving DecidableEq, Repr

/-- The counter and the action of one button check (R126): the decrement first, then the comparisons (D18). -/
def buttonCheck (retrigger btn on : Bool) (timeout : Byte) : Byte × ButtonAction :=
  if btn then (255#8, .exit)
  else
    let dec := timeout != 0#8
    let t := satDec timeout
    if on then
      if t == 0#8 && (dec || retrigger) then (t, .off)
      else if t == 250#8 then (t, .clear)
      else (t, .exit)
    else
      if t == 200#8 && dec then (t, .on) else (t, .exit)

/-- The first micro-step of a button check's action (R126). -/
def firstOfAction (k : Ctx) : ButtonAction → MicroStep
  | .exit => buttonExit k
  | .off => .bOff k
  | .on => .bOn k
  | .clear => .bClr k 0

end Sys2Proof.Machine
end

