-- ==== Sys2Proof/Machine/Button.lean ====
section
/-! DEFINITION. The button and power task (R125 to R130). -/

namespace Sys2Proof.Machine

open Sys2Proof

/-- `B_SAMPLE(k)` (R126): the button and `on` are read in this step (R128). -/
def stepBSample (k : Ctx) (s : State) : State :=
  let r := buttonCheck s.cfg.val.floorRetrigger s.btn s.on s.buttonTimeout
  ({ s with buttonTimeout := r.1 } : State).goto (firstOfAction k r.2)

/-- `B_OFF(k)` (R127). -/
def stepBOff (k : Ctx) (s : State) : State := ({ s with on := false } : State).goto (buttonExit k)

/-- `B_ON(k)` (R127). -/
def stepBOn (k : Ctx) (s : State) : State := ({ s with on := true } : State).goto (buttonExit k)

/-- `B_CLR(k,i)` (R127). -/
def stepBClr (k : Ctx) (i : Fin 64) (s : State) : State :=
  (s.write i.val 0x00#8).goto
    (match nextIn i with
    | some j => .bClr k j
    | none => .bARead k)

/-- `B_AREAD(k)` (R127). -/
def stepBARead (k : Ctx) (s : State) : State :=
  ({ s with tmp := BitVec.ofNat 8 s.animationId.val } : State).goto (.bAWrite k)

/-- `B_AWRITE(k)` (R127). -/
def stepBAWrite (k : Ctx) (s : State) : State :=
  ({ s with animationId := nextAnimation s.tmp.toNat } : State).goto (buttonExit k)

end Sys2Proof.Machine
end

