-- ==== Sys2Proof/Machine/Counter.lean ====
section
/-! DEFINITION. The free-running counter and the waits on it (R70, R78, R86). -/

namespace Sys2Proof.Machine

open Sys2Proof

/-- One `CTR` tick (R70), with the flag R132 asks of a model that records SLOT_LATE for F_WAIT(0,0) (log 8). -/
def tickStep (s : State) : State :=
  let t := (s.tcnt + 1) % s.cfg.val.counterPeriod
  { s with
    tcnt := t
    tov := if t = 0 then true else s.tov
    zeroMissed := s.zeroMissed || (s.seq == .fWait 0 0 && s.tcnt == 0) }

/-- `SLOT_LATE(b,l,tcnt)` recorded if the passing wait is late (R132); the flag starts afresh at F_WAIT(0,0). -/
def noteLate (b : Plane) (l : Layer) (s : State) : State :=
  let noted := if slotIsLate s b l then s.record (.slotLate b l s.tcnt) else s
  if b = 0 ∧ l = 0 then { noted with zeroMissed := false } else noted

/-- `F_WAIT(b,l)` (R78). While the guard is false FG has no step: its turn changes nothing. -/
def stepFWait (b : Plane) (l : Layer) (s : State) : State :=
  if waitPasses b l s.tcnt then (noteLate b l s).goto (.fOff b l) else s

/-- `I_WAIT` (R86). While `tov = 0` FG has no step: its turn changes nothing. -/
def stepIWait (s : State) : State :=
  if s.tov then ({ s with tov := false } : State).goto (.bSample .idle) else s

end Sys2Proof.Machine
end

