-- ==== Sys2Proof/Machine/Rebuild.lean ====
section
/-! DEFINITION. The bit-plane extraction datapath: the pure function (R62) and the rebuild micro-step (R66). -/

namespace Sys2Proof.Machine

open Sys2Proof

/-- `P[b]` of R62: the loop over the sixteen positions. -/
def bitPlane (V : Pos → Byte) (W : Pos → Pos) (b : Plane) : Word :=
  (List.finRange 16).foldl (fun P p => setBit P (W p) ((V p).getLsbD b.val)) 0x0000#16

/-- `BitPlanes(V, W)` (R62). -/
def bitPlanes (V : Pos → Byte) (W : Pos → Pos) : Vector Word 7 :=
  Vector.ofFn fun b => bitPlane V W b

/-- `RB(l,p)` (R66): one read of the voxel, seven bits of `PL[l]`. -/
def stepRb (l : Layer) (p : Pos) (s : State) : State :=
  let v := s.read (voxelAddr l p)
  ({ s with pl := s.pl.set l.val (setPlanes s.pl[l] (s.cfg.val.wire p) v) } : State).goto
    (match nextIn p with
    | some p' => .rb l p'
    | none => afterRebuild l)

end Sys2Proof.Machine
end

