-- ==== Sys2Proof/Machine/Scheduler.lean ====
section
/-! DEFINITION. The scheduler's own micro-steps: power dispatch, interrupt mask, the layer-0 and layer-1 tasks, the dark of the idle mode (R77, R79 to R82, R85). -/

namespace Sys2Proof.Machine

open Sys2Proof

/-- `LOOP` (R77). -/
def stepLoop (s : State) : State := s.goto (if s.on then .fMask else .iOff)

/-- `F_MASK` (R79). -/
def stepFMask (s : State) : State := ({ s with ie := false } : State).goto (.fShift 0 0)

/-- `F_UNMASK` (R80). -/
def stepFUnmask (s : State) : State := ({ s with ie := true } : State).goto (.fShift 1 0)

/-- `T0_READ` (R81). -/
def stepT0Read (s : State) : State := ({ s with tmp := s.usartTimeout } : State).goto .t0Write

/-- `T0_WRITE` (R81): nothing is written at `tmp = 0`. -/
def stepT0Write (s : State) : State :=
  (if s.tmp = 0#8 then s else { s with usartTimeout := s.tmp - 1#8 } : State).goto (.rb 0 0)

/-- `T1_GATE` (R82). -/
def stepT1Gate (s : State) : State := s.goto (if gatePasses s then .aBegin else .rb 1 0)

/-- `I_OFF` (R85). -/
def stepIOff (s : State) : State :=
  ((((s.setEnable 0 false).setEnable 1 false).setEnable 2 false).setEnable 3 false).goto .iWait

end Sys2Proof.Machine
end

