-- ==== Sys2Proof/Machine/Shift.lean ====
section
/-! DEFINITION. The shift-out driver and the layer switch (R91 to R95), and the shift-out at pin level (R92). -/

namespace Sys2Proof.Machine

open Sys2Proof

/-- `F_SHIFT(b,l)` (R91): one atomic update of `sr` (R92, D23). It does not latch (C1). -/
def stepFShift (b : Plane) (l : Layer) (s : State) : State :=
  ({ s with sr := s.plane l b } : State).goto (.fWait b l)

/-- `F_OFF(b,l)` (R93). -/
def stepFOff (b : Plane) (l : Layer) (s : State) : State :=
  (s.setEnable (outgoing l) false).goto (.fLatch b l)

/-- `F_LATCH(b,l)` (R94). -/
def stepFLatch (b : Plane) (l : Layer) (s : State) : State :=
  ({ s with out := s.sr } : State).goto (.fOn b l)

/-- `F_ON(b,l)` (R95). -/
def stepFOn (b : Plane) (l : Layer) (s : State) : State :=
  (s.setEnable l true).goto (afterOn b l)

/-- One CLOCK pulse (R92): every stage moves up by one and DATA enters at stage 0. -/
def clockPulse (chain : Word) (bit : Bool) : Word :=
  (chain <<< 1) ||| (if bit then 1#16 else 0#16)

/-- The DATA values of a shift-out of `w`, in the order they are driven (R92): `w[15]` first, `w[0]` last. -/
def dataBits (w : Word) : List Bool := (List.range 16).map fun n => w.getLsbD (15 - n)

/-- The chain after the sixteen data-and-clock pairs of a shift-out of `w` (R92). -/
def shiftOut (chain w : Word) : Word := (dataBits w).foldl clockPulse chain

end Sys2Proof.Machine
end

