-- ==== Sys2Proof/Machine/Foreground.lean ====
section
/-! DEFINITION. One turn of the foreground sequencer: the micro-step `seq` names (R23, R74, R75). -/

namespace Sys2Proof.Machine

open Sys2Proof

/-- The micro-step at `seq`. `draw` is the oracle's answer, which only `A_SPK` takes (R103). -/
def fgStep (draw : BitVec 2) (s : State) : State :=
  match s.seq with
  | .loop => stepLoop s
  | .fMask => stepFMask s
  | .fShift b l => stepFShift b l s
  | .fWait b l => stepFWait b l s
  | .fOff b l => stepFOff b l s
  | .fLatch b l => stepFLatch b l s
  | .fOn b l => stepFOn b l s
  | .fUnmask => stepFUnmask s
  | .t0Read => stepT0Read s
  | .t0Write => stepT0Write s
  | .t1Gate => stepT1Gate s
  | .aBegin => stepABegin s
  | .aSpk i => stepASpk i draw s
  | .aSwp i => stepASwp i s
  | .aSwpEnd => stepASwpEnd s
  | .aChs L k => stepAChs L k s
  | .aChsEnd => stepAChsEnd s
  | .aFil i => stepAFil i s
  | .bSample k => stepBSample k s
  | .bOff k => stepBOff k s
  | .bOn k => stepBOn k s
  | .bClr k i => stepBClr k i s
  | .bARead k => stepBARead k s
  | .bAWrite k => stepBAWrite k s
  | .rb l p => stepRb l p s
  | .iOff => stepIOff s
  | .iWait => stepIWait s

end Sys2Proof.Machine
end

