-- ==== Sys2Proof/Syntax.lean ====
section
/-! DEFINITION. The command set: one constructor per row of spec/opcode_table.json (R53 to R59). -/

namespace Sys2Proof

/-- A command of the host port. The operand of a reserved row is the whole 6-bit control opcode (R54, R55), so that
the row's own fixed bits are checked by WellFormed (log 12). -/
inductive Instr where
  /-- `DATA v`, `0vvvvvvv`: the whole byte is the operand (R54, R119). -/
  | data (v : Byte)
  /-- `SETCUR c`, `11cccccc` (R121). -/
  | setcur (c : BitVec 6)
  /-- `CURHOME`, `10000000` (R113). -/
  | curhome
  /-- `POWEROFF`, `10000001` (R114). -/
  | poweroff
  /-- `POWERON`, `10000010` (R115). -/
  | poweron
  /-- `NEXTANIM`, `10000011` (R116). -/
  | nextanim
  /-- `CLEAR`, `10000100` (R117). -/
  | clear
  /-- `PING`, `10000101` (R118). -/
  | ping
  /-- `CTRL o`, o in 6..7, `1000011o` (R120). -/
  | ctrl6to7 (o : BitVec 6)
  /-- `CTRL o`, o in 8..15, `10001ooo` (R120). -/
  | ctrl8to15 (o : BitVec 6)
  /-- `CTRL o`, o in 16..31, `1001oooo` (R120). -/
  | ctrl16to31 (o : BitVec 6)
  /-- `CTRL o`, o in 32..63, `101ooooo` (R120). -/
  | ctrl32to63 (o : BitVec 6)
deriving DecidableEq, Repr

end Sys2Proof
end

