-- ==== Sys2Proof/WellFormed.lean ====
section
/-! DEFINITION. The operand ranges of R55, R56 and R59: a term outside them is refused, never masked. -/

namespace Sys2Proof

/-- The operand is in the range its row gives it. -/
def Instr.wf : Instr → Bool
  | .data v => decide (v.toNat < 128)
  | .setcur _ => true
  | .curhome => true
  | .poweroff => true
  | .poweron => true
  | .nextanim => true
  | .clear => true
  | .ping => true
  | .ctrl6to7 o => decide (6 ≤ o.toNat ∧ o.toNat ≤ 7)
  | .ctrl8to15 o => decide (8 ≤ o.toNat ∧ o.toNat ≤ 15)
  | .ctrl16to31 o => decide (16 ≤ o.toNat ∧ o.toNat ≤ 31)
  | .ctrl32to63 o => decide (32 ≤ o.toNat)

end Sys2Proof
end

