-- ==== Sys2Proof/Decode.lean ====
section
/-! DEFINITION. The decoder of R57, total on bytes, and the encoder of R54 and R59. -/

namespace Sys2Proof

/-- Why a byte sequence holds no command. No byte is illegal (R58), so only the absence of a byte is. -/
inductive DecodeError where
  /-- There is no byte to decode. -/
  | noByte
deriving DecidableEq, Repr

/-- The control opcodes, format `CTL` (R56). -/
def decodeControl (o : BitVec 6) : Instr :=
  if o = 0#6 then .curhome
  else if o = 1#6 then .poweroff
  else if o = 2#6 then .poweron
  else if o = 3#6 then .nextanim
  else if o = 4#6 then .clear
  else if o = 5#6 then .ping
  else if o.toNat ≤ 7 then .ctrl6to7 o
  else if o.toNat ≤ 15 then .ctrl8to15 o
  else if o.toNat ≤ 31 then .ctrl16to31 o
  else .ctrl32to63 o

/-- One command byte, in the order of R57: bit 7 clear is `DATA`, then bit 6 set is `SETCUR`, else bits 5:0 select. -/
def decodeByte (x : Byte) : Instr :=
  if x.getLsbD 7 = false then .data x
  else if x.getLsbD 6 then .setcur (x.extractLsb' 0 6)
  else decodeControl (x.extractLsb' 0 6)

/-- The first command of a byte stream and the rest of the stream. Every command is one byte (R53). -/
def decode : List Byte → Except DecodeError (Instr × List Byte)
  | [] => .error .noByte
  | x :: rest => .ok (decodeByte x, rest)

/-- The command byte of an instruction (R54, R59): `DAT` is the operand, `CUR` is 11 and `CTL` is 10 above six bits. -/
def encodeByte : Instr → Byte
  | .data v => v
  | .setcur c => 0b11#2 ++ c
  | .curhome => 0x80#8
  | .poweroff => 0x81#8
  | .poweron => 0x82#8
  | .nextanim => 0x83#8
  | .clear => 0x84#8
  | .ping => 0x85#8
  | .ctrl6to7 o => 0b10#2 ++ o
  | .ctrl8to15 o => 0b10#2 ++ o
  | .ctrl16to31 o => 0b10#2 ++ o
  | .ctrl32to63 o => 0b10#2 ++ o

/-- The bytes of an instruction (R53: always one). -/
def encode (i : Instr) : List Byte := [encodeByte i]

/-- `n` bytes of `w`, bits 7..0 first: on this link a command is one byte, so the order never shows. -/
def bytesOf : Nat → Nat → List Byte
  | 0, _ => []
  | n + 1, w => BitVec.ofNat 8 w :: bytesOf n (w / 256)

/-- The instruction the decoder reads from an opcode-table word: the word's bytes hold one command and nothing more. -/
def decodeTableWord (nbits w : Nat) : Option Instr :=
  match decode (bytesOf (nbits / 8) (w % 2 ^ nbits)) with
  | .ok (i, []) => some i
  | .ok (_, _ :: _) => none
  | .error _ => none

end Sys2Proof
end

