-- ==== Sys2Proof/Machine/Commands.lean ====
section
/-! DEFINITION. The meaning of each command of the host port (R113 to R121): what the RXH step does after it has consumed the byte. -/

namespace Sys2Proof.Machine

open Sys2Proof

/-- `DATA v` (R119). -/
def execData (v : Byte) (s : State) : Host.Outcome State Fault Refusal :=
  let written := ({ s with usartTimeout := 255#8 } : State).write s.cursor.toNat v
  .next { written with cursor := s.cursor + 1#6 }

/-- `SETCUR c` (R121). -/
def execSetcur (c : BitVec 6) (s : State) : Host.Outcome State Fault Refusal :=
  .next { s with cursor := c }

/-- `CURHOME` (R113). -/
def execCurhome (s : State) : Host.Outcome State Fault Refusal :=
  .next { s with cursor := 0#6 }

/-- `POWEROFF` (R114). -/
def execPoweroff (s : State) : Host.Outcome State Fault Refusal :=
  .next { s with on := false }

/-- `POWERON` (R115). -/
def execPoweron (s : State) : Host.Outcome State Fault Refusal :=
  .next { s with on := true }

/-- `NEXTANIM` (R116): the advance, and always the clear. -/
def execNextanim (s : State) : Host.Outcome State Fault Refusal :=
  .next ({ s with animationId := nextAnimation s.animationId.val } : State).clearStore

/-- `CLEAR` (R117). -/
def execClear (s : State) : Host.Outcome State Fault Refusal :=
  .next s.clearStore

/-- `PING` (R118). -/
def execPing (s : State) : Host.Outcome State Fault Refusal :=
  .next { s with usartTimeout := 255#8 }

/-- A reserved control opcode (R120): recorded, and nothing written. -/
def ignoreReserved (o : BitVec 6) (s : State) : State := s.record (.unknownOpcode o)

/-- `CTRL o`, o in 6..7 (R120). -/
def execCtrl6to7 (o : BitVec 6) (s : State) : Host.Outcome State Fault Refusal :=
  .next (ignoreReserved o s)

/-- `CTRL o`, o in 8..15 (R120). -/
def execCtrl8to15 (o : BitVec 6) (s : State) : Host.Outcome State Fault Refusal :=
  .next (ignoreReserved o s)

/-- `CTRL o`, o in 16..31 (R120). -/
def execCtrl16to31 (o : BitVec 6) (s : State) : Host.Outcome State Fault Refusal :=
  .next (ignoreReserved o s)

/-- `CTRL o`, o in 32..63 (R120). -/
def execCtrl32to63 (o : BitVec 6) (s : State) : Host.Outcome State Fault Refusal :=
  .next (ignoreReserved o s)

end Sys2Proof.Machine
end

