-- ==== Sys2Proof/Machine/Dispatch.lean ====
section
/-! DEFINITION. The dispatch of the RXH step (R111): one arm per command. -/

namespace Sys2Proof.Machine

open Sys2Proof

def exec (i : Instr) (s : State) : Host.Outcome State Fault Refusal :=
  match i with
  | .data v => Sys2Proof.Machine.execData v s
  | .setcur c => Sys2Proof.Machine.execSetcur c s
  | .curhome => Sys2Proof.Machine.execCurhome s
  | .poweroff => Sys2Proof.Machine.execPoweroff s
  | .poweron => Sys2Proof.Machine.execPoweron s
  | .nextanim => Sys2Proof.Machine.execNextanim s
  | .clear => Sys2Proof.Machine.execClear s
  | .ping => Sys2Proof.Machine.execPing s
  | .ctrl6to7 o => Sys2Proof.Machine.execCtrl6to7 o s
  | .ctrl8to15 o => Sys2Proof.Machine.execCtrl8to15 o s
  | .ctrl16to31 o => Sys2Proof.Machine.execCtrl16to31 o s
  | .ctrl32to63 o => Sys2Proof.Machine.execCtrl32to63 o s

end Sys2Proof.Machine
end

