-- ==== Sys2Proof/Machine/HostPort.lean ====
section
/-! DEFINITION. The serial link's delivery (R110), the button's input (R125) and the receive handler (R111). -/

namespace Sys2Proof.Machine

open Sys2Proof

/-- A `HOST` delivery of `v` (R110): the earlier, unconsumed byte is kept and the new one is lost (C5). -/
def hostStep (v : Byte) (s : State) : State :=
  if s.rxFull then s.record (.rxOverrun v) else { s with rxBuf := v, rxFull := true }

/-- A `BTN` step (R125). -/
def btnStep (level : Bool) (s : State) : State := { s with btn := level }

/-- The answer's state after the handler's return (R137). -/
def returning : Host.Outcome State Fault Refusal → Host.Outcome State Fault Refusal
  | .next s => .next s.returnFromHandler
  | .fault r => .fault r
  | .refused r => .refused r

/-- A turn of `RXH` (R111). Where it is not enabled it has no step: its turn changes nothing. -/
def rxhStep (s : State) : Host.Outcome State Fault Refusal :=
  if rxhEnabled s then returning (exec (decodeByte s.takeByte.1) s.takeByte.2) else .next s

end Sys2Proof.Machine
end

