-- ==== Sys2Proof/Machine/Agents.lean ====
section
/-! DEFINITION. Which agent takes the next turn, and the turn (R11, R47, R75, R135; log 1). -/

namespace Sys2Proof.Machine

open Sys2Proof

/-- The next event and the state without it: the head of the agenda, or a free value where the agenda is empty. -/
def State.nextEvent (s : State) : Event × State :=
  match s.agenda with
  | e :: rest => (e, { s with agenda := rest })
  | [] => (Config.freeEvent s.freeIdx, { s with freeIdx := s.freeIdx + 1 })

/-- One atomic step of the agent the event names. -/
def agentStep (e : Event) (s : State) : Host.Outcome State Fault Refusal :=
  match e with
  | .fg draw => .next (fgStep draw s)
  | .rxh => rxhStep s
  | .tick => .next (tickStep s)
  | .host v => .next (hostStep v s)
  | .btn level => .next (btnStep level s)

/-- The state in which the next step runs exactly the command byte `x`: the byte pending in `rx_buf`, interrupts
open, and the handler's turn next (log 2). -/
def State.withPendingByte (s : State) (x : Byte) : State :=
  { s with rxBuf := x, rxFull := true, ie := true, agenda := .rxh :: s.agenda }

end Sys2Proof.Machine
end

