-- ==== Sys2Proof/Machine/Step.lean ====
section
/-! DEFINITION. One step of the machine, and the placing of a command where the next step takes it. -/

namespace Sys2Proof.Machine

open Sys2Proof

/-- One step: the next event's agent takes its turn. -/
def step (s : State) : Host.Outcome State Fault Refusal :=
  agentStep s.nextEvent.1 s.nextEvent.2

/-- `s` with the command byte `w` (bits above `nbits` zero) where the next step takes its command (log 2). -/
def State.withFetchWord (s : State) (nbits w : Nat) : State :=
  s.withPendingByte (BitVec.ofNat 8 (w % 2 ^ nbits))

end Sys2Proof.Machine
end

