-- ==== Sys2Proof/Machine/Assembler.lean ====
section
/-! DEFINITION. The assembler syntax and the pseudo-instructions (R59, R60), and a stream of commands taken one after another. -/

namespace Sys2Proof.Machine

open Sys2Proof

/-- A line of the syntax of R59, or a pseudo-instruction of R60, its operands as written. -/
inductive AsmLine where
  | data (v : Nat)
  | setcur (c : Nat)
  | curhome
  | poweroff
  | poweron
  | nextanim
  | clear
  | ping
  | ctrl (o : Nat)
  | nop
  | write (a v : Nat)
  | loadall (v : Nat)
  | loadframe (vs : List Nat)
deriving DecidableEq, Repr

/-- Why the assembler refuses a line (R59: an operand outside its range is refused, never masked). -/
inductive AsmError where
  | operandOutOfRange (n : Nat)
  /-- `LOADFRAME` takes exactly 64 values (R60). -/
  | notSixtyFourValues (n : Nat)
deriving DecidableEq, Repr

/-- `DATA v`, v in 0..127. -/
def asmData (v : Nat) : Except AsmError Instr :=
  if v < 128 then .ok (.data (BitVec.ofNat 8 v)) else .error (.operandOutOfRange v)

/-- `SETCUR c`, c in 0..63. -/
def asmSetcur (c : Nat) : Except AsmError Instr :=
  if c < 64 then .ok (.setcur (BitVec.ofNat 6 c)) else .error (.operandOutOfRange c)

/-- `CTRL o`, o in 0..63: every control byte, the reserved ones included. -/
def asmCtrl (o : Nat) : Except AsmError Instr :=
  if o < 64 then .ok (decodeControl (BitVec.ofNat 6 o)) else .error (.operandOutOfRange o)

/-- One `DATA` a value, in order. -/
def asmDatas : List Nat → Except AsmError (List Instr)
  | [] => .ok []
  | v :: vs =>
    match asmData v, asmDatas vs with
    | .ok i, .ok is => .ok (i :: is)
    | .error e, _ => .error e
    | .ok _, .error e => .error e

/-- The commands of a line (R59), a pseudo-instruction expanded (R60). -/
def assemble : AsmLine → Except AsmError (List Instr)
  | .data v => (asmData v).map ([·])
  | .setcur c => (asmSetcur c).map ([·])
  | .curhome => .ok [.curhome]
  | .poweroff => .ok [.poweroff]
  | .poweron => .ok [.poweron]
  | .nextanim => .ok [.nextanim]
  | .clear => .ok [.clear]
  | .ping => .ok [.ping]
  | .ctrl o => (asmCtrl o).map ([·])
  | .nop => (asmCtrl 63).map ([·])
  | .write a v =>
    match asmSetcur a, asmData v with
    | .ok i, .ok j => .ok [i, j]
    | .error e, _ => .error e
    | .ok _, .error e => .error e
  | .loadall v => (asmDatas (List.replicate 64 v)).map (Instr.curhome :: ·)
  | .loadframe vs =>
    if vs.length = 64 then (asmDatas vs).map (Instr.curhome :: ·) else .error (.notSixtyFourValues vs.length)

/-- The command bytes of a line, as the host sends them. -/
def assembleBytes (l : AsmLine) : Except AsmError (List Byte) := (assemble l).map (·.map encodeByte)

/-- Commands taken one after another, no foreground step between them (95_test_vectors.md section 3). -/
def execAll : List Instr → State → Host.Outcome State Fault Refusal
  | [], s => .next s
  | i :: is, s =>
    match exec i s with
    | .next t => execAll is t
    | .fault r => .fault r
    | .refused r => .refused r

end Sys2Proof.Machine
end

