-- ==== Sys2Proof/Machine/PowerUp.lean ====
section
/-! DEFINITION. Power-up (R145, R148): the only reset, and the only place a configuration is refused (R65, R131). -/

namespace Sys2Proof.Machine

open Sys2Proof

/-- Power-up with configuration `c` and the values R145 leaves unspecified: the reset state, or the refusal of a
configuration that breaks a constraint of R9 (R65; log 6). -/
def powerUp (c : Config) (u : Unspecified) : Host.Outcome State Fault Refusal :=
  if h : c.valid = true then .next (State.resetWith ⟨c, h⟩ u) else .refused .invalidConfiguration

end Sys2Proof.Machine
end

