-- ==== Sys2Proof/Machine/Display.lean ====
section
/-! DEFINITION. The display output, the block's only observable (R97, R98). -/

namespace Sys2Proof.Machine

open Sys2Proof

/-- Voxel (L, p) is lit iff `en[L] = 1` and `out[WIRING(p)] = 1` (R97). -/
def lit (s : State) (L : Layer) (p : Pos) : Bool :=
  s.enabled L && s.out.getLsbD (s.cfg.val.wire p).val

/-- The display output: the lit voxels, by layer and position. -/
def litVoxels (s : State) : List (Layer × Pos) :=
  ((List.finRange 4).flatMap fun L => (List.finRange 16).map fun p => (L, p)).filter fun x => lit s x.1 x.2

/-- The physical enable lines that are driven (R22, R97): `LAYER_LINE` of the enabled layers. -/
def drivenLines (s : State) : List Nat :=
  ((List.finRange 4).filter fun L => s.enabled L).map fun L => s.cfg.val.line L

end Sys2Proof.Machine
end

