-- ==== Sys2Proof/Machine/Timing.lean ====
section
/-! DEFINITION. The ideal timing of R89 as a schedule: FG takes every enabled step before the next tick. Derived timing only: no step of the machine assumes it (R71, R157). -/

namespace Sys2Proof.Machine

open Sys2Proof

/-- The next step under the ideal timing is a tick: FG is held at a wait. -/
def idealTick (s : State) : Bool := !fgReady s

/-- One step under the ideal timing of R89, with no byte arriving: FG if it has a step, else a tick. -/
def idealStep (s : State) (draw : BitVec 2) : State :=
  if idealTick s then tickStep s else fgStep draw s

/-- The run under the ideal timing, one oracle answer a step. -/
def idealRun (draws : List (BitVec 2)) (s : State) : State := draws.foldl idealStep s

/-- How many ticks fall in that run. -/
def idealTicks : List (BitVec 2) → State → Nat
  | [], _ => 0
  | d :: ds, s => (if idealTick s then 1 else 0) + idealTicks ds (idealStep s d)

/-- In how many of those ticks voxel (L, p) is lit. -/
def idealLitTicks (L : Layer) (p : Pos) : List (BitVec 2) → State → Nat
  | [], _ => 0
  | d :: ds, s => (if idealTick s && lit s L p then 1 else 0) + idealLitTicks L p ds (idealStep s d)

/-- The states of that run, the first included. -/
def idealStates : List (BitVec 2) → State → List State
  | [], s => [s]
  | d :: ds, s => s :: idealStates ds (idealStep s d)

/-- The duration of slot (l,b) under the ideal timing (R89, R157). -/
def slotTicks (period : Nat) (l : Layer) (b : Plane) : Nat :=
  if b = 6 ∧ l = 3 then period - threshold 3 6 else 2 ^ b.val

end Sys2Proof.Machine
end

