-- ==== Sys2Proof/Safety.lean ====
section
/-! DEFINITION. The invariants of R36 and R96, what it means that a step leaves a part of the state alone, and the named assumption TIMING_CONTRACT (R150). -/

namespace Sys2Proof.Machine

open Sys2Proof

/-- The one layer that may be lit while `seq` stands at a position, if any may: the layer of the last `F_ON`, until
the `F_OFF` or the `I_OFF` that darkens it (R93, R95, R85). -/
def MicroStep.litLayer : MicroStep → Option Layer
  | .loop => some 3
  | .fMask => some 3
  | .fShift _ l => some (outgoing l)
  | .fWait _ l => some (outgoing l)
  | .fOff _ l => some (outgoing l)
  | .fLatch _ _ => none
  | .fOn _ _ => none
  | .fUnmask => some 3
  | .t0Read => some 0
  | .t0Write => some 0
  | .t1Gate => some 1
  | .aBegin => some 1
  | .aSpk _ => some 1
  | .aSwp _ => some 1
  | .aSwpEnd => some 1
  | .aChs _ _ => some 1
  | .aChsEnd => some 1
  | .aFil _ => some 1
  | .bSample .frame => some 2
  | .bOff .frame => some 2
  | .bOn .frame => some 2
  | .bClr .frame _ => some 2
  | .bARead .frame => some 2
  | .bAWrite .frame => some 2
  | .bSample .idle => none
  | .bOff .idle => none
  | .bOn .idle => none
  | .bClr .idle _ => none
  | .bARead .idle => none
  | .bAWrite .idle => none
  | .rb l _ => some l
  | .iOff => some 3
  | .iWait => none

/-- The invariants of R36. Its (b) and (c), `cursor` in 0..63 and `animation_id` in 0..3, hold by the fields' types. -/
structure Invariants (s : State) : Prop where
  /-- R36 (a), with which layer it can be (R96). -/
  enabledLayer : ∀ L, s.enabled L = true → s.seq.litLayer = some L
  /-- R36 (d). -/
  counterInRange : s.tcnt < s.cfg.val.counterPeriod
  /-- R36 (e). -/
  maskedExactly : s.ie = false ↔ s.seq.masked = true
  /-- R36 (f). -/
  animationStateInRange : s.animationState.toNat ≤ 15
  /-- The store is in its canonical form, all of it inside 0..63 (R37). -/
  memoryCanonical : s.mem.wf = true

/-- The pattern of slot (l,b) is on its way to the light (R91, R94, R95): in the chain from `F_SHIFT` to the latch, in
the latch when `F_ON` lights the layer. -/
structure PatternInFlight (s : State) : Prop where
  inChain : ∀ b l, s.seq = .fWait b l ∨ s.seq = .fOff b l ∨ s.seq = .fLatch b l → s.sr = s.plane l b
  inLatch : ∀ b l, s.seq = .fOn b l → s.out = s.plane l b

/-- Every part of the state, by name. -/
inductive Field where
  | config | store | planes | shiftRegister | outputLatch | enables | sequencer | interruptEnable | counter | rollover
  | power | animationId | animationState | usartTimeout | buttonTimeout | cursor | rxBuf | rxFull | tmp | animS
  | button | trace | zeroMissed | agenda | freeIdx
deriving DecidableEq, Repr

/-- A part of the state is the same in both states; for the store, every address reads the same. -/
def State.agree (f : Field) (s t : State) : Prop :=
  match f with
  | .config => t.cfg = s.cfg
  | .store => ∀ a, t.read a = s.read a
  | .planes => t.pl = s.pl
  | .shiftRegister => t.sr = s.sr
  | .outputLatch => t.out = s.out
  | .enables => t.en = s.en
  | .sequencer => t.seq = s.seq
  | .interruptEnable => t.ie = s.ie
  | .counter => t.tcnt = s.tcnt
  | .rollover => t.tov = s.tov
  | .power => t.on = s.on
  | .animationId => t.animationId = s.animationId
  | .animationState => t.animationState = s.animationState
  | .usartTimeout => t.usartTimeout = s.usartTimeout
  | .buttonTimeout => t.buttonTimeout = s.buttonTimeout
  | .cursor => t.cursor = s.cursor
  | .rxBuf => t.rxBuf = s.rxBuf
  | .rxFull => t.rxFull = s.rxFull
  | .tmp => t.tmp = s.tmp
  | .animS => t.animS = s.animS
  | .button => t.btn = s.btn
  | .trace => t.trace = s.trace
  | .zeroMissed => t.zeroMissed = s.zeroMissed
  | .agenda => t.agenda = s.agenda
  | .freeIdx => t.freeIdx = s.freeIdx

/-- Nothing but the listed parts differs. -/
def Unchanged (but : List Field) (s t : State) : Prop := ∀ f, f ∉ but → State.agree f s t

/-- The store of `t` is that of `s` but for address `a` (modulo 64, R38), which reads `v`. -/
def StoredOnly (a : Nat) (v : Byte) (s t : State) : Prop :=
  t.read a = v ∧ ∀ x, x % 64 ≠ a % 64 → t.read x = s.read x

/-- The foreground is inside a frame, between `F_MASK` and the last rebuild. -/
def MicroStep.inFrame : MicroStep → Bool
  | .loop => false
  | .iOff => false
  | .iWait => false
  | .bSample .idle => false
  | .bOff .idle => false
  | .bOn .idle => false
  | .bClr .idle _ => false
  | .bARead .idle => false
  | .bAWrite .idle => false
  | _ => true

/-- The micro-steps before a frame's start: from `F_MASK` to the frame-start wait. -/
def MicroStep.leadsIn : MicroStep → Bool
  | .fMask => true
  | .fShift b l => b == 0 && l == 0
  | .fWait b l => b == 0 && l == 0
  | _ => false

/-- The micro-steps of a frame that has passed its start. -/
def MicroStep.started (m : MicroStep) : Bool := m.inFrame && !m.leadsIn

/-- The micro-steps of the idle mode (R87). -/
def MicroStep.idle (m : MicroStep) : Bool := m != .loop && !m.inFrame

/-- FG is held by the counter alone at the waits of the slots. -/
def MicroStep.slotWait : MicroStep → Bool
  | .fWait _ _ => true
  | _ => false

/-- The five micro-steps of the bit-0 slot of layer `l` (R74). -/
def MicroStep.inBitZeroSlot (m : MicroStep) (l : Layer) : Bool :=
  m == .fShift 0 l || m == .fWait 0 l || m == .fOff 0 l || m == .fLatch 0 l || m == .fOn 0 l

/-- A stretch of a run from inside a frame to a later place of the same frame, or past its end and `LOOP` to a place on
the way to the next frame's start, the frame-start wait itself at most. The idle mode does not come between. -/
structure FrameStretch (seg : List State) : Prop where
  starts : ∃ s ∈ seg.head?, s.seq.started = true
  ends : ∃ t ∈ seg.getLast?, t.seq.inFrame = true
  oneFrame : ∀ u ∈ seg.dropLast, u.seq ≠ .fWait 0 0 ∧ u.seq.idle = false

/-- How many ticks of a stretch fall while FG is at a micro-step that is no wait. -/
def workTicks : List State → Nat
  | s :: t :: rest => (if t.tcnt ≠ s.tcnt ∧ s.seq.slotWait = false then 1 else 0) + workTicks (t :: rest)
  | _ => 0

/-- TIMING_CONTRACT (R150), an assumption about a run and no rule of the machine (log 15). -/
structure TimingContract (run : List State) : Prop where
  /-- (a) every wait but (0,0) is reached while `tcnt` is below its threshold. -/
  reachedEarly : ∀ s t, [s, t] <:+: run → ∀ b l, ¬(b = 0 ∧ l = 0) → t.seq = .fWait b l → s.seq ≠ t.seq →
    t.tcnt < threshold l b
  /-- (a), (b) `tcnt` does not wrap from the passing of a frame's start to the frame's end, nor from there to the
  frame-start wait of a frame that follows. -/
  onePeriod : ∀ seg, seg <:+: run → FrameStretch seg → seg.Pairwise fun s t => s.tcnt ≤ t.tcnt
  /-- (b) the frame-start wait of a frame that follows a frame is reached at T(3,6) or later. -/
  nextStartReached : ∀ seg, seg <:+: run → FrameStretch seg → ∀ t ∈ seg.getLast?, t.seq = .fWait 0 0 →
    threshold 3 6 ≤ t.tcnt
  /-- (c) at most one tick falls in the shift and the switch of a bit-0 slot, the two together. -/
  bitZeroInOneTick : ∀ seg l, seg <:+: run → (∀ s ∈ seg, s.seq.inBitZeroSlot l = true) → workTicks seg ≤ 1

/-- A powered-on frame is about to start at `tcnt = 0`, and the button is released. -/
structure FrameStart (s : State) : Prop where
  atLoop : s.seq = .loop
  poweredOn : s.on = true
  atZero : s.tcnt = 0
  released : s.btn = true

end Sys2Proof.Machine
end

