-- ==== Sys2Proof/Certificates/Slice0/Obligations.lean ====
section
/-! DEFINITION. The statements for the provers. Each docstring names the rule it formalises or the sections it rests on. -/

open Sys2Proof Sys2Proof.Machine

/-! ## Encoding -/

/-- R56, R57: the opcode map, all 256 bytes. -/
def Obligations.OpcodeMapOfEveryByte : Prop :=
  ∀ x : Byte,
    (x.toNat < 0x80 → decodeByte x = .data x) ∧
    (x = 0x80#8 → decodeByte x = .curhome) ∧
    (x = 0x81#8 → decodeByte x = .poweroff) ∧
    (x = 0x82#8 → decodeByte x = .poweron) ∧
    (x = 0x83#8 → decodeByte x = .nextanim) ∧
    (x = 0x84#8 → decodeByte x = .clear) ∧
    (x = 0x85#8 → decodeByte x = .ping) ∧
    (0x86 ≤ x.toNat ∧ x.toNat ≤ 0x87 → decodeByte x = .ctrl6to7 (BitVec.ofNat 6 (x.toNat - 0x80))) ∧
    (0x88 ≤ x.toNat ∧ x.toNat ≤ 0x8F → decodeByte x = .ctrl8to15 (BitVec.ofNat 6 (x.toNat - 0x80))) ∧
    (0x90 ≤ x.toNat ∧ x.toNat ≤ 0x9F → decodeByte x = .ctrl16to31 (BitVec.ofNat 6 (x.toNat - 0x80))) ∧
    (0xA0 ≤ x.toNat ∧ x.toNat ≤ 0xBF → decodeByte x = .ctrl32to63 (BitVec.ofNat 6 (x.toNat - 0x80))) ∧
    (0xC0 ≤ x.toNat → decodeByte x = .setcur (BitVec.ofNat 6 (x.toNat - 0xC0)))

/-- 95_test_vectors.md 2.1, and 1.1 for `SETCUR 21`: bytes of each format, written out bit by bit, and the commands they
stand for. The last clause is no rule's: that an empty stream is refused by name is the model's choice (log 18). -/
def Obligations.SpecBytesDecode : Prop :=
  decode [0b01000000#8] = .ok (.data 64#8, []) ∧
  decode [0b11010101#8] = .ok (.setcur 21#6, []) ∧
  decode [0b11111111#8] = .ok (.setcur 63#6, []) ∧
  decode [0b10000011#8] = .ok (.nextanim, []) ∧
  decode [0b10000101#8] = .ok (.ping, []) ∧
  decode [0b10000110#8] = .ok (.ctrl6to7 6#6, []) ∧
  decode [0b10011111#8] = .ok (.ctrl16to31 31#6, []) ∧
  decode [0b10111111#8] = .ok (.ctrl32to63 63#6, []) ∧
  decode [] = .error .noByte

/-- R53, R54, R55, R59: no operand bit is lost by the encoding, for every well-formed command and whatever follows it. -/
def Obligations.DecodeOfEncodeGivesTheCommand : Prop :=
  ∀ (i : Instr) (rest : List Byte), i.wf = true → decode (encode i ++ rest) = .ok (i, rest)

/-- R53, R57: what the decoder reads is well-formed and encodes to the byte read: every byte has one meaning. -/
def Obligations.EncodeOfDecodeGivesTheBytes : Prop :=
  ∀ (bytes rest : List Byte) (i : Instr), decode bytes = .ok (i, rest) →
    i.wf = true ∧ encode i ++ rest = bytes

/-! ## A step runs the decoded command -/

/-- R111, R136, R137: the handler's turn with a byte pending and interrupts open runs the decoded command on the state
with the byte consumed, and the return adds nothing. -/
def Obligations.HandlerTurnRunsThePendingByte : Prop :=
  ∀ (s : State) (rest : List Event) (i : Instr),
    s.agenda = .rxh :: rest → s.ie = true → s.rxFull = true → decode [s.rxBuf] = .ok (i, []) →
    step s = exec i { s with agenda := rest, rxFull := false }

/-- Log 2 (the model's choice of where a command is placed): the step after withFetchWord runs the table word's command. -/
def Obligations.StepRunsTheFetchedWord : Prop :=
  ∀ (s : State) (w : Nat) (i : Instr), w < 256 → decodeTableWord 8 w = some i →
    step (s.withFetchWord 8 w) = exec i { s with rxBuf := BitVec.ofNat 8 w, rxFull := false, ie := true }

/-- Log 1 (the model's choice): a step is the turn of the agenda's first event, or of the free event where the agenda
is empty. -/
def Obligations.StepTakesTheNextEvent : Prop :=
  (∀ (s : State) (e : Event) (rest : List Event), s.agenda = e :: rest →
    step s = agentStep e { s with agenda := rest }) ∧
  (∀ s : State, s.agenda = [] →
    step s = agentStep (Config.freeEvent s.freeIdx) { s with freeIdx := s.freeIdx + 1 })

/-- R134: when the handler has a step, that it has none in the bit-0 phase, and that a byte pending at `F_MASK` or
arriving in the phase is kept through it and taken after `F_UNMASK`. That the turn of a handler with no step changes
nothing is the model's rendering of "no step is enabled" (log 1). -/
def Obligations.HandlerEnabledExactlyWhenUnmaskedAndPending : Prop :=
  (∀ s : State, ¬(s.ie = true ∧ s.rxFull = true) → agentStep .rxh s = .next s) ∧
  (∀ s : State, s.ie = true → s.rxFull = true → ∃ t, agentStep .rxh s = .next t ∧ t.rxFull = false) ∧
  (∀ s : State, Invariants s → s.seq.masked = true → agentStep .rxh s = .next s) ∧
  (∀ (s : State) (d : BitVec 2), s.seq = .fMask → ∃ t, agentStep (.fg d) s = .next t ∧ t.ie = false ∧
    t.rxFull = s.rxFull ∧ t.rxBuf = s.rxBuf) ∧
  (∀ s t : State, s.ie = false → step s = .next t →
    (t.ie = false ∨ ((∃ d, s.nextEvent.1 = .fg d) ∧ s.seq = .fUnmask)) ∧
    (s.rxFull = true → t.rxFull = true ∧ t.rxBuf = s.rxBuf) ∧
    (∀ v, s.rxFull = false → s.nextEvent.1 = .host v → t.rxFull = true ∧ t.rxBuf = v)) ∧
  (∀ (s : State) (d : BitVec 2), s.seq = .fUnmask → s.rxFull = true → ∃ t u, agentStep (.fg d) s = .next t ∧
    t.rxFull = true ∧ t.rxBuf = s.rxBuf ∧ agentStep .rxh t = .next u ∧ u.rxFull = false)

/-- R111, R136, R139: what the handler may write, and that it leaves all else alone, the foreground's own state and the
interrupt mask among it. -/
def Obligations.HandlerLeavesTheForegroundAlone : Prop :=
  ∀ s t : State, agentStep .rxh s = .next t →
    Unchanged [.store, .power, .animationId, .usartTimeout, .cursor, .rxFull, .trace] s t

/-! ## The commands -/

/-- R119. -/
def Obligations.DataWritesTheCursorVoxel : Prop :=
  ∀ (v : Byte) (s : State), (Instr.data v).wf = true →
    ∃ t, exec (.data v) s = .next t ∧ t.usartTimeout = 255#8 ∧ StoredOnly s.cursor.toNat v s t ∧
      t.cursor.toNat = (s.cursor.toNat + 1) % 64 ∧ Unchanged [.usartTimeout, .store, .cursor] s t

/-- R113, R121. -/
def Obligations.CursorCommandsMoveTheCursorOnly : Prop :=
  (∀ s : State, ∃ t, exec .curhome s = .next t ∧ t.cursor = 0#6 ∧ Unchanged [.cursor] s t) ∧
  (∀ (c : BitVec 6) (s : State), ∃ t, exec (.setcur c) s = .next t ∧ t.cursor = c ∧ Unchanged [.cursor] s t) ∧
  (∀ s : State, exec (.setcur 0#6) s = exec .curhome s) ∧
  decodeByte 0xFF#8 = .setcur 63#6 ∧ decodeByte 0xD5#8 = .setcur 21#6 ∧ decodeByte 0x80#8 = .curhome

/-- The pseudocode and the state written of R114, R115 and R118. -/
def Obligations.PowerAndPingWriteOneVariableEach : Prop :=
  ∀ s : State,
    (∃ t, exec .poweroff s = .next t ∧ t.on = false ∧ Unchanged [.power] s t) ∧
    (∃ t, exec .poweron s = .next t ∧ t.on = true ∧ Unchanged [.power] s t) ∧
    (∃ t, exec .ping s = .next t ∧ t.usartTimeout = 255#8 ∧ Unchanged [.usartTimeout] s t)

/-- R116. -/
def Obligations.NextanimAdvancesAndAlwaysClears : Prop :=
  ∀ s : State, ∃ t, exec .nextanim s = .next t ∧ t.animationId.val = (s.animationId.val + 1) % 4 ∧
    (∀ a, t.read a = 0x00#8) ∧ Unchanged [.animationId, .store] s t

/-- The pseudocode and the state written of R117. -/
def Obligations.ClearZeroesTheStore : Prop :=
  ∀ s : State, ∃ t, exec .clear s = .next t ∧ (∀ a, t.read a = 0x00#8) ∧ Unchanged [.store] s t

/-- R120: the four reserved rows. The trace is no state of the block (R13, R132). -/
def Obligations.ReservedOpcodesHaveNoEffect : Prop :=
  ∀ (o : BitVec 6) (s : State) (i : Instr),
    i ∈ [Instr.ctrl6to7 o, .ctrl8to15 o, .ctrl16to31 o, .ctrl32to63 o] → i.wf = true →
    ∃ t, exec i s = .next t ∧ t.trace = s.trace ++ [.unknownOpcode o] ∧ Unchanged [.trace] s t

/-- R123. -/
def Obligations.OnlyDataAndPingWriteTheLinkCounter : Prop :=
  ∀ (i : Instr) (s t : State), exec i s = .next t →
    if i = .ping ∨ ∃ v, i = .data v then t.usartTimeout = 255#8 else t.usartTimeout = s.usartTimeout

/-- R122. -/
def Obligations.SixtyFourDataBytesFillTheStore : Prop :=
  (∀ (is : List Instr) (s t : State), execAll is s = .next t → t.cursor.toNat < 64) ∧
  (∀ (vs : List Byte) (s : State), vs.length = 64 → (∀ v ∈ vs, v.toNat < 128) → s.cursor = 0#6 →
    ∃ t, execAll (vs.map .data) s = .next t ∧ t.cursor = 0#6 ∧ ∀ a, (h : a < vs.length) → t.read a = vs[a])

/-- R60: the expansions and what they leave. -/
def Obligations.PseudoInstructionsLeaveWhatTheyName : Prop :=
  (∀ s : State, ∃ is t, assembleBytes .nop = .ok [0xBF#8] ∧ assemble .nop = .ok is ∧
    execAll is s = .next t ∧ Unchanged [.trace] s t) ∧
  (∀ (a v : Nat) (s : State), a < 64 → v < 128 → ∃ is t,
    assemble (.write a v) = .ok is ∧ is = [.setcur (BitVec.ofNat 6 a), .data (BitVec.ofNat 8 v)] ∧
    execAll is s = .next t ∧ t.read a = BitVec.ofNat 8 v ∧ t.cursor.toNat = (a + 1) % 64) ∧
  (∀ (v : Nat) (s : State), v < 128 → ∃ is t,
    assemble (.loadall v) = .ok is ∧ is = .curhome :: List.replicate 64 (.data (BitVec.ofNat 8 v)) ∧
    execAll is s = .next t ∧ t.cursor = 0#6 ∧ ∀ a, t.read a = BitVec.ofNat 8 v) ∧
  (∀ (vs : List Nat) (s : State), vs.length = 64 → (∀ v ∈ vs, v < 128) → ∃ is t,
    assemble (.loadframe vs) = .ok is ∧ is = .curhome :: vs.map (fun v => .data (BitVec.ofNat 8 v)) ∧
    execAll is s = .next t ∧ ∀ a, (h : a < vs.length) → t.read a = BitVec.ofNat 8 vs[a])

/-- R59's last two sentences: an operand outside its range is refused, never masked; inside it, the byte is the
table's. -/
def Obligations.AssemblerRefusesOutOfRangeOperands : Prop :=
  (∀ v, assembleBytes (.data v) = if v < 128 then .ok [BitVec.ofNat 8 v] else .error (.operandOutOfRange v)) ∧
  (∀ c, assembleBytes (.setcur c) =
    if c < 64 then .ok [BitVec.ofNat 8 (0xC0 + c)] else .error (.operandOutOfRange c)) ∧
  (∀ o, assembleBytes (.ctrl o) =
    if o < 64 then .ok [BitVec.ofNat 8 (0x80 + o)] else .error (.operandOutOfRange o))

/-! ## Reset, configuration, and the whole machine -/

/-- R145: every value the table gives, for every configuration and every draw of the unspecified values. -/
def Obligations.ResetStateAsTabulated : Prop :=
  ∀ (c : ValidConfig) (u : Unspecified),
    let s := State.resetWith c u
    (∀ a, s.read a = 0x00#8) ∧ (∀ l b, s.plane l b = 0x0000#16) ∧ (∀ L, s.enabled L = false) ∧
    s.sr = u.sr ∧ s.out = u.out ∧ s.seq = .loop ∧ s.ie = true ∧ s.tcnt = 0 ∧ s.tov = false ∧
    s.on = c.val.resetOn ∧ s.animationId = 0 ∧ s.animationState = 0#8 ∧ s.usartTimeout = 0#8 ∧
    s.buttonTimeout = 255#8 ∧ s.cursor = 0#6 ∧ s.rxFull = false ∧ s.rxBuf = u.rxBuf ∧
    s.tmp = u.tmp ∧ s.animS = u.animS

/-- R65: a configuration with a wiring that is no bijection is refused, a good one is not, and no state carries a bad one. -/
def Obligations.NonBijectiveWiringIsRefused : Prop :=
  (∀ (c : Config) (u : Unspecified), ¬Function.Bijective c.wire → powerUp c u = .refused .invalidConfiguration) ∧
  (∀ (c : Config) (u : Unspecified), Function.Bijective c.wire → Function.Injective c.line →
    444 < c.counterPeriod → c.counterPeriod ≤ 2 ^ c.counterWidth → c.maxBright &&& 0x7F#8 = 0x7F#8 →
    ∃ h : c.valid = true, powerUp c u = .next (State.resetWith ⟨c, h⟩ u)) ∧
  (∀ s : State, Function.Bijective s.cfg.val.wire)

/-- R131: no step faults or refuses, and power-up's one refusal is that of the configuration. -/
def Obligations.EveryStepAnswersANextState : Prop :=
  (∀ s : State, ∃ t, step s = .next t) ∧
  (∀ (c : Config) (u : Unspecified), (∃ t, powerUp c u = .next t) ∨ powerUp c u = .refused .invalidConfiguration)

/-- R36 and R96, strengthened so that they are inductive: every step of every agent keeps them. -/
def Obligations.StepKeepsTheInvariants : Prop :=
  ∀ s t : State, Invariants s → step s = .next t → Invariants t

/-- The invariants hold at reset, for every configuration and every draw of the unspecified values. -/
def Obligations.ResetMeetsTheInvariants : Prop :=
  ∀ (c : ValidConfig) (u : Unspecified), Invariants (State.resetWith c u)

/-- R36 word for word, in every state reached from any reset under any schedule of the agents. -/
def Obligations.ReachableStatesKeepR36 : Prop :=
  ∀ (c : ValidConfig) (u : Unspecified) (schedule : List Event) (start n : Nat) (t : State),
    Host.Core.run Sys2Proof.core n { State.resetWith c u with agenda := schedule, freeIdx := start } = .next t →
    (∀ L M, t.enabled L = true → t.enabled M = true → L = M) ∧
    t.cursor.toNat ≤ 63 ∧ t.animationId.val ≤ 3 ∧ t.tcnt < c.val.counterPeriod ∧
    (t.ie = false ↔ t.seq = .fUnmask ∨ ∃ l, t.seq = .fShift 0 l ∨ t.seq = .fWait 0 l ∨ t.seq = .fOff 0 l ∨
      t.seq = .fLatch 0 l ∨ t.seq = .fOn 0 l) ∧
    t.animationState.toNat ≤ 15

/-- R96: at most one layer, none during the switch, the latch changes in the dark only, and no other agent writes the
enables or the latch. So a layer that stays lit keeps the pattern it shows, and a layer is lit by its own `F_ON` alone,
with its own pattern in the latch (`PatternInFlight`, which every step keeps by StepKeepsThePatternInFlight). -/
def Obligations.LayersNeverShowAnotherLayersPattern : Prop :=
  ∀ s t : State, Invariants s → step s = .next t →
    (∀ L M, s.enabled L = true → s.enabled M = true → L = M) ∧
    (∀ b l, s.seq = .fLatch b l ∨ s.seq = .fOn b l → ∀ L, s.enabled L = false) ∧
    (t.out ≠ s.out → ∀ L, s.enabled L = false ∧ t.enabled L = false) ∧
    ((∀ d, s.nextEvent.1 ≠ .fg d) → t.en = s.en ∧ t.out = s.out) ∧
    (∀ L, s.enabled L = true → t.enabled L = true → t.out = s.out) ∧
    (∀ L, s.enabled L = false → t.enabled L = true → (∃ d, s.nextEvent.1 = .fg d) ∧ ∃ b, s.seq = .fOn b L) ∧
    (PatternInFlight s → ∀ d b l, s.nextEvent.1 = .fg d → s.seq = .fOn b l →
      t.enabled l = true ∧ t.out = t.plane l b ∧ t.plane l b = s.plane l b)

/-- R98, with the display output of R97 and the enable lines of R22: one layer at a time, sixteen voxels at most, and
one driven line at most, `LAYER_LINE` of the enabled layer. -/
def Obligations.AtMostSixteenVoxelsLit : Prop :=
  ∀ s : State, Invariants s →
    (∀ L p, (L, p) ∈ litVoxels s ↔ s.enabled L = true ∧ s.out.getLsbD (s.cfg.val.wire p).val = true) ∧
    (∀ x ∈ litVoxels s, ∀ y ∈ litVoxels s, x.1 = y.1) ∧ (litVoxels s).length ≤ 16 ∧
    (∀ L, s.enabled L = true → drivenLines s = [s.cfg.val.line L]) ∧
    ((∀ L, s.enabled L = false) → drivenLines s = []) ∧
    (∀ L, s.cfg.val.line L ∈ drivenLines s ↔ s.enabled L = true)

/-- R19 to R22, R41: who writes the bit-plane words, the chain, the latch and the enables. -/
def Obligations.OnlyNamedStepsWriteTheDatapath : Prop :=
  ∀ s t : State, step s = .next t →
    (t.pl ≠ s.pl → (∃ d, s.nextEvent.1 = .fg d) ∧ ∃ l p, s.seq = .rb l p) ∧
    (t.sr ≠ s.sr → (∃ d, s.nextEvent.1 = .fg d) ∧ ∃ b l, s.seq = .fShift b l) ∧
    (t.out ≠ s.out → (∃ d, s.nextEvent.1 = .fg d) ∧ ∃ b l, s.seq = .fLatch b l) ∧
    (t.en ≠ s.en → (∃ d, s.nextEvent.1 = .fg d) ∧
      (s.seq = .iOff ∨ ∃ b l, s.seq = .fOff b l ∨ s.seq = .fOn b l))

/-- R18, R23 to R33, R125: who writes the store, the sequencer, the mask, the counter, the control variables, the
receiver, the scratch registers and the button's level; and of R9, that no parameter changes while the block runs. -/
def Obligations.OnlyNamedStepsWriteTheControlVariables : Prop :=
  ∀ s t : State, step s = .next t →
    t.cfg = s.cfg ∧
    (∀ a, t.read a ≠ s.read a → s.nextEvent.1 = .rxh ∨ ((∃ d, s.nextEvent.1 = .fg d) ∧
      ((∃ i : Fin 64, i.val = a % 64 ∧ (s.seq = .aSpk i ∨ s.seq = .aSwp i ∨ s.seq = .aFil i ∨ ∃ k, s.seq = .bClr k i)) ∨
        ∃ L k, s.seq = .aChs L k ∧ L.val = a % 64 / 16))) ∧
    (t.seq ≠ s.seq → ∃ d, s.nextEvent.1 = .fg d) ∧
    (t.ie ≠ s.ie → (∃ d, s.nextEvent.1 = .fg d) ∧ (s.seq = .fMask ∨ s.seq = .fUnmask)) ∧
    (t.tcnt ≠ s.tcnt → s.nextEvent.1 = .tick) ∧
    (t.tov ≠ s.tov → s.nextEvent.1 = .tick ∨ ((∃ d, s.nextEvent.1 = .fg d) ∧ s.seq = .iWait)) ∧
    (t.on ≠ s.on → s.nextEvent.1 = .rxh ∨ ((∃ d, s.nextEvent.1 = .fg d) ∧ ∃ k, s.seq = .bOff k ∨ s.seq = .bOn k)) ∧
    (t.animationId ≠ s.animationId →
      s.nextEvent.1 = .rxh ∨ ((∃ d, s.nextEvent.1 = .fg d) ∧ ∃ k, s.seq = .bAWrite k)) ∧
    (t.animationState ≠ s.animationState →
      (∃ d, s.nextEvent.1 = .fg d) ∧ (s.seq = .aSwpEnd ∨ s.seq = .aChsEnd)) ∧
    (t.usartTimeout ≠ s.usartTimeout → s.nextEvent.1 = .rxh ∨ ((∃ d, s.nextEvent.1 = .fg d) ∧ s.seq = .t0Write)) ∧
    (t.buttonTimeout ≠ s.buttonTimeout → (∃ d, s.nextEvent.1 = .fg d) ∧ ∃ k, s.seq = .bSample k) ∧
    (t.cursor ≠ s.cursor → s.nextEvent.1 = .rxh) ∧
    (t.rxBuf ≠ s.rxBuf → s.nextEvent.1 = .host t.rxBuf ∧ s.rxFull = false) ∧
    (t.rxFull ≠ s.rxFull → if t.rxFull = true then ∃ v, s.nextEvent.1 = .host v else s.nextEvent.1 = .rxh) ∧
    (t.tmp ≠ s.tmp → (∃ d, s.nextEvent.1 = .fg d) ∧ (s.seq = .t0Read ∨ ∃ k, s.seq = .bARead k)) ∧
    (t.animS ≠ s.animS → (∃ d, s.nextEvent.1 = .fg d) ∧ s.seq = .aBegin) ∧
    (t.btn ≠ s.btn → s.nextEvent.1 = .btn t.btn)

/-- R102: bit 7 of an intensity comes only from an animation's write of 0xFF. -/
def Obligations.BitSevenComesOnlyFromAnimations : Prop :=
  ∀ (s t : State) (a : Nat), step s = .next t → (t.read a).getLsbD 7 = true → (s.read a).getLsbD 7 = false →
    (∃ d, s.nextEvent.1 = .fg d) ∧ s.cfg.val.maxBright = 0xFF#8 ∧ t.read a = 0xFF#8 ∧
    ((∃ i, s.seq = .aSpk i ∨ s.seq = .aSwp i ∨ s.seq = .aFil i) ∨ ∃ L, s.seq = .aChs L 1)

/-! ## The intensity store -/

/-- R37, R38: the layout, and that every address is taken modulo 64. -/
def Obligations.StoreLayoutAndMasking : Prop :=
  (∀ (L : Layer) (r c : Fin 4), voxelAddr L (positionOf r c) = 16 * L.val + 4 * r.val + c.val) ∧
  (∀ a : Fin 64, voxelAddr (layerOf a) (positionOf (rowOf a) (colOf a)) = a.val ∧
    (layerOf a).val = a.val / 16 ∧ (rowOf a).val = a.val / 4 % 4 ∧ (colOf a).val = a.val % 4) ∧
  (∀ (L : Layer) (p : Pos), 16 * L.val ≤ voxelAddr L p ∧ voxelAddr L p ≤ 16 * L.val + 15) ∧
  (∀ (s : State) (a : Nat) (v : Byte),
    s.read (a % 64) = s.read a ∧ s.write (a % 64) v = s.write a v ∧ (s.write a v).read a = v ∧
    ∀ x, x % 64 ≠ a % 64 → (s.write a v).read x = s.read x)

/-! ## The counter, the waits and the slots -/

/-- R70. When a tick sets the flag that R132 asks for is the model's choice (log 8). -/
def Obligations.TickCountsAndWraps : Prop :=
  ∀ s : State, ∃ t, agentStep .tick s = .next t ∧ t.tcnt = (s.tcnt + 1) % s.cfg.val.counterPeriod ∧
    t.tov = (if t.tcnt = 0 then true else s.tov) ∧
    t.zeroMissed = (if s.seq = .fWait 0 0 ∧ s.tcnt = 0 then true else s.zeroMissed) ∧
    Unchanged [.counter, .rollover, .zeroMissed] s t

/-- R73. -/
def Obligations.ThresholdsIncreaseInSlotOrder : Prop :=
  (∀ (l : Layer) (b b' : Plane), b'.val = b.val + 1 → threshold l b < threshold l b') ∧
  (∀ (b : Plane) (l l' : Layer), l'.val = l.val + 1 → threshold l' b = threshold l b + 2 ^ b.val) ∧
  (∀ b b' : Plane, b'.val = b.val + 1 →
    threshold 3 b + 4 = 7 * 2 ^ b.val ∧ threshold 0 b' + 4 = 8 * 2 ^ b.val ∧
    threshold 0 b' = threshold 3 b + 2 ^ b.val)

/-- R78: the guards. That the turn of a held foreground changes nothing is the model's reading of "FG has no step"
(log 10). What a passing wait writes beside `seq`, the trace and its flag (R132, code 3), is the model's choice
(log 8). -/
def Obligations.SlotWaitHoldsUntilItsThreshold : Prop :=
  ∀ (s : State) (d : BitVec 2) (b : Plane) (l : Layer), s.seq = .fWait b l →
    (b = 0 ∧ l = 0 → s.tcnt = 0 → ∃ t, agentStep (.fg d) s = .next t ∧ t.seq = .fOff b l ∧ t.zeroMissed = false ∧
      t.trace = (if s.zeroMissed then s.trace ++ [.slotLate 0 0 0] else s.trace) ∧
      Unchanged [.sequencer, .trace, .zeroMissed] s t) ∧
    (b = 0 ∧ l = 0 → s.tcnt ≠ 0 → agentStep (.fg d) s = .next s) ∧
    (¬(b = 0 ∧ l = 0) → threshold l b ≤ s.tcnt → ∃ t, agentStep (.fg d) s = .next t ∧ t.seq = .fOff b l ∧
      t.trace = (if threshold l b < s.tcnt then s.trace ++ [.slotLate b l s.tcnt] else s.trace) ∧
      Unchanged [.sequencer, .trace] s t) ∧
    (¬(b = 0 ∧ l = 0) → s.tcnt < threshold l b → agentStep (.fg d) s = .next s)

/-- R77, R79, R80: the pseudocode and the state written. -/
def Obligations.PowerDispatchAndInterruptMask : Prop :=
  ∀ (s : State) (d : BitVec 2),
    (s.seq = .loop → ∃ t, agentStep (.fg d) s = .next t ∧ t.seq = (if s.on then .fMask else .iOff) ∧
      Unchanged [.sequencer] s t) ∧
    (s.seq = .fMask → ∃ t, agentStep (.fg d) s = .next t ∧ t.ie = false ∧ t.seq = .fShift 0 0 ∧
      Unchanged [.interruptEnable, .sequencer] s t) ∧
    (s.seq = .fUnmask → ∃ t, agentStep (.fg d) s = .next t ∧ t.ie = true ∧ t.seq = .fShift 1 0 ∧
      Unchanged [.interruptEnable, .sequencer] s t)

/-- R76: the successors. -/
def Obligations.SlotsAreTakenInOrder : Prop :=
  ∀ (s t : State) (d : BitVec 2), agentStep (.fg d) s = .next t →
    (∀ (b : Plane) (l l' : Layer), s.seq = .fOn b l → b.val ≤ 5 → l'.val = l.val + 1 → t.seq = .fShift b l') ∧
    (s.seq = .fOn 0 3 → t.seq = .fUnmask) ∧
    (∀ b b' : Plane, s.seq = .fOn b 3 → 1 ≤ b.val → b'.val = b.val + 1 → t.seq = .fShift b' 0) ∧
    (s.seq = .fOn 6 0 → t.seq = .t0Read) ∧ (s.seq = .fOn 6 1 → t.seq = .t1Gate) ∧
    (s.seq = .fOn 6 2 → t.seq = .bSample .frame) ∧ (s.seq = .fOn 6 3 → t.seq = .rb 3 0) ∧
    (s.seq = .t0Write → t.seq = .rb 0 0) ∧ (s.seq = .t1Gate → t.seq = .aBegin ∨ t.seq = .rb 1 0) ∧
    (s.seq = .bSample .frame → t.seq ∈ [MicroStep.bOff .frame, .bOn .frame, .bClr .frame 0, .rb 2 0]) ∧
    (s.seq = .aSpk 63 ∨ s.seq = .aSwpEnd ∨ s.seq = .aChsEnd ∨ s.seq = .aFil 63 → t.seq = .rb 1 0) ∧
    (s.seq = .bOff .frame ∨ s.seq = .bOn .frame ∨ s.seq = .bAWrite .frame → t.seq = .rb 2 0) ∧
    (∀ l l' : Layer, s.seq = .rb l 15 → l'.val = l.val + 1 → t.seq = .fShift 6 l') ∧
    (s.seq = .rb 3 15 → t.seq = .loop)

/-- R91, R93, R94, and the pseudocode of R95: the shift and the switch. -/
def Obligations.ShiftAndLayerSwitchSteps : Prop :=
  ∀ (s : State) (d : BitVec 2) (b : Plane) (l : Layer),
    (s.seq = .fShift b l → ∃ t, agentStep (.fg d) s = .next t ∧ t.sr = s.plane l b ∧ t.seq = .fWait b l ∧
      Unchanged [.shiftRegister, .sequencer] s t) ∧
    (s.seq = .fOff b l → ∃ t, agentStep (.fg d) s = .next t ∧ t.seq = .fLatch b l ∧
      (∀ L : Layer, t.enabled L = if L.val = (l.val + 3) % 4 then false else s.enabled L) ∧
      (Invariants s → ∀ L, t.enabled L = false) ∧
      Unchanged [.enables, .sequencer] s t) ∧
    (s.seq = .fLatch b l → ∃ t, agentStep (.fg d) s = .next t ∧ t.out = s.sr ∧ t.seq = .fOn b l ∧
      (Invariants s → ∀ L, s.enabled L = false) ∧
      Unchanged [.outputLatch, .sequencer] s t) ∧
    (s.seq = .fOn b l → ∃ t, agentStep (.fg d) s = .next t ∧
      (∀ L : Layer, t.enabled L = if L = l then true else s.enabled L) ∧ t.seq = afterOn b l ∧
      Unchanged [.enables, .sequencer] s t)

/-- The corner cases of R91 and R95: from `F_SHIFT(b,l)` on, through every step of every agent, the chain and then the
latch carry `PL[l][b]`, so the layer that `F_ON(b,l)` lights shows the pattern that was shifted. -/
def Obligations.StepKeepsThePatternInFlight : Prop :=
  (∀ s t : State, PatternInFlight s → step s = .next t → PatternInFlight t) ∧
  (∀ (c : ValidConfig) (u : Unspecified), PatternInFlight (State.resetWith c u))

/-- R92: sixteen data-and-clock pairs, most significant bit first, leave `w` in the chain whatever it held. -/
def Obligations.SixteenPulsesShiftTheWordIn : Prop :=
  ∀ chain w : Word, (dataBits w).length = 16 ∧ (∀ k : Pos, (dataBits w)[15 - k.val]? = some (w.getLsbD k.val)) ∧
    shiftOut chain w = w

/-- R85, R86: the idle mode's own steps. That the turn of a foreground held at `I_WAIT` changes nothing is the model's
reading of "FG has no step" (log 10). -/
def Obligations.IdleModeDarkensAndWaitsForRollover : Prop :=
  ∀ (s : State) (d : BitVec 2),
    (s.seq = .iOff → ∃ t, agentStep (.fg d) s = .next t ∧ (∀ L, t.enabled L = false) ∧ t.seq = .iWait ∧
      Unchanged [.enables, .sequencer] s t) ∧
    (s.seq = .iWait → s.tov = true → ∃ t, agentStep (.fg d) s = .next t ∧ t.tov = false ∧
      t.seq = .bSample .idle ∧ Unchanged [.rollover, .sequencer] s t) ∧
    (s.seq = .iWait → s.tov = false → agentStep (.fg d) s = .next s)

/-- R87, R88, R144: while powered off the idle mode's foreground steps lead round the idle loop and change only the
enables, the rollover flag, the hold counter and the power flag. -/
def Obligations.IdleModeStaysIdle : Prop :=
  ∀ (s t : State) (d : BitVec 2), agentStep (.fg d) s = .next t → s.on = false →
    s.seq ∈ [MicroStep.loop, .iOff, .iWait, .bSample .idle, .bOff .idle, .bOn .idle] →
    t.seq ∈ [MicroStep.loop, .iOff, .iWait, .bSample .idle, .bOff .idle, .bOn .idle] ∧
    Unchanged [.enables, .rollover, .buttonTimeout, .power, .sequencer] s t

/-! ## The bit-plane datapath -/

/-- R63. -/
def Obligations.BitPlanesIgnoreBitSeven : Prop :=
  (∀ (V V' : Pos → Byte) (W : Pos → Pos), (∀ p, V p &&& 0x7F#8 = V' p &&& 0x7F#8) →
    bitPlanes V W = bitPlanes V' W) ∧
  (∀ (V : Pos → Byte) (W : Pos → Pos), bitPlanes (fun p => V p ^^^ 0x80#8) W = bitPlanes V W)

/-- R64: bit `k` of each word comes from the one position wired to output `k`. -/
def Obligations.BitPlanesTakeEachPositionOnce : Prop :=
  ∀ (V : Pos → Byte) (W : Pos → Pos), Function.Bijective W → ∀ k : Pos,
    ∃ p, W p = k ∧ (∀ q, W q = k → q = p) ∧ ∀ b : Plane, ((bitPlanes V W)[b]).getLsbD k.val = (V p).getLsbD b.val

/-- R66. -/
def Obligations.RebuildStepWritesOnePosition : Prop :=
  ∀ (s : State) (d : BitVec 2) (l : Layer) (p : Pos), s.seq = .rb l p →
    ∃ t, agentStep (.fg d) s = .next t ∧
      (∀ (m : Layer) (b : Plane) (k : Pos), (t.plane m b).getLsbD k.val =
        if m = l ∧ k = s.cfg.val.wire p then (s.read (16 * l.val + p.val)).getLsbD b.val
        else (s.plane m b).getLsbD k.val) ∧
      (∀ q : Pos, q.val = p.val + 1 → t.seq = .rb l q) ∧ (p = 15 → t.seq = afterRebuild l) ∧
      Unchanged [.planes, .sequencer] s t

/-- R67: sixteen rebuild steps with any turns of the other agents between them. Position by position the layer's words
hold the bits of the value read at that position's own micro-step; and where no handler turn among them changes a voxel
of the layer, the words are BitPlanes of its sixteen voxels. No other layer's words change. -/
def Obligations.LayerRebuildIsBitPlanes : Prop :=
  ∀ (s : State) (l : Layer) (events rest : List Event),
    s.seq = .rb l 0 → s.agenda = events ++ rest →
    (events.filter fun e => match e with | .fg _ => true | _ => false).length = 16 →
    ∃ t, Host.Core.run Sys2Proof.core events.length s = .next t ∧ t.agenda = rest ∧
      t.seq = afterRebuild l ∧
      (∀ (m : Layer) (b : Plane), m ≠ l → t.plane m b = s.plane m b) ∧
      (∀ p : Pos, ∃ (k : Nat) (u : State) (d : BitVec 2), Host.Core.run Sys2Proof.core k s = .next u ∧
        events[k]? = some (.fg d) ∧ u.seq = .rb l p ∧
        ∀ b : Plane, (t.plane l b).getLsbD (s.cfg.val.wire p).val = (u.read (16 * l.val + p.val)).getLsbD b.val) ∧
      ((∀ (k : Nat) (u v : State), events[k]? = some .rxh → Host.Core.run Sys2Proof.core k s = .next u →
          Host.Core.run Sys2Proof.core (k + 1) s = .next v →
          ∀ p : Pos, v.read (16 * l.val + p.val) = u.read (16 * l.val + p.val)) →
        ∀ b, t.plane l b = (bitPlanes (fun p => s.read (16 * l.val + p.val)) s.cfg.val.wire)[b])

/-! ## The background tasks -/

/-- R81: the pseudocode and the state written. -/
def Obligations.LinkCounterDecrementIsSplit : Prop :=
  ∀ (s : State) (d : BitVec 2),
    (s.seq = .t0Read → ∃ t, agentStep (.fg d) s = .next t ∧ t.tmp = s.usartTimeout ∧ t.seq = .t0Write ∧
      Unchanged [.tmp, .sequencer] s t) ∧
    (s.seq = .t0Write → ∃ t, agentStep (.fg d) s = .next t ∧ t.seq = .rb 0 0 ∧
      t.usartTimeout.toNat = (if 0 < s.tmp.toNat then s.tmp.toNat - 1 else s.usartTimeout.toNat) ∧
      Unchanged [.usartTimeout, .sequencer] s t)

/-- R52, R81: a PING the handler takes between the two halves of the decrement is lost, unless the counter was 0. -/
def Obligations.PingBetweenReadAndWriteIsLost : Prop :=
  ∀ (s : State) (d d' : BitVec 2) (rest : List Event), s.seq = .t0Read → s.ie = true → s.rxFull = true →
    s.rxBuf = 0x85#8 → s.agenda = .fg d :: .rxh :: .fg d' :: rest →
    ∃ t, Host.Core.run Sys2Proof.core 3 s = .next t ∧ t.rxFull = false ∧
      t.usartTimeout.toNat = if 0 < s.usartTimeout.toNat then s.usartTimeout.toNat - 1 else 255

/-- R82, R101. -/
def Obligations.AnimationGateAndDispatch : Prop :=
  ∀ (s : State) (d : BitVec 2),
    (s.seq = .t1Gate → ∃ t, agentStep (.fg d) s = .next t ∧
      t.seq = (if s.usartTimeout = 0#8 ∧ s.on = true then .aBegin else .rb 1 0) ∧ Unchanged [.sequencer] s t) ∧
    (s.seq = .aBegin → ∃ t, agentStep (.fg d) s = .next t ∧ t.animS = s.animationState ∧
      (s.animationId = 0 → t.seq = .aSpk 0) ∧ (s.animationId = 1 → t.seq = .aSwp 0) ∧
      (s.animationId = 2 → t.seq = .aChs 0 0) ∧ (s.animationId = 3 → t.seq = .aFil 0) ∧
      Unchanged [.animS, .sequencer] s t)

/-- R103, R108: the pseudocode and the state written of Sparkle and Fill, whatever the oracle answers. -/
def Obligations.SparkleAndFillWriteOneVoxelAStep : Prop :=
  ∀ (s : State) (d : BitVec 2) (i : Fin 64),
    (s.seq = .aSpk i → ∃ t, agentStep (.fg d) s = .next t ∧
      StoredOnly i.val (if d = 0#2 then s.cfg.val.maxBright else 0x00#8) s t ∧
      (∀ j : Fin 64, j.val = i.val + 1 → t.seq = .aSpk j) ∧ (i = 63 → t.seq = .rb 1 0) ∧
      Unchanged [.store, .sequencer] s t) ∧
    (s.seq = .aFil i → ∃ t, agentStep (.fg d) s = .next t ∧ StoredOnly i.val s.cfg.val.maxBright s t ∧
      (∀ j : Fin 64, j.val = i.val + 1 → t.seq = .aFil j) ∧ (i = 63 → t.seq = .rb 1 0) ∧
      Unchanged [.store, .sequencer] s t)

/-- R104, with the table of 95_test_vectors.md 2.7: which voxels each state lights, and the next state. -/
def Obligations.SweepWritesColumnsThenRows : Prop :=
  ∀ (s : State) (d : BitVec 2) (i : Fin 64),
    (s.seq = .aSwp i → ∃ (t : State) (state : Nat), agentStep (.fg d) s = .next t ∧
      state = (if s.animS.toNat ≤ 13 then s.animS.toNat else 0) ∧
      (let index := [0, 1, 2, 3, 2, 1, 0, 0, 1, 2, 3, 2, 1, 0][state]?
       let mine := if state ≤ 6 then i.val % 4 else i.val / 4 % 4
       StoredOnly i.val (if index = some mine then s.cfg.val.maxBright else 0x00#8) s t) ∧
      (∀ j : Fin 64, j.val = i.val + 1 → t.seq = .aSwp j) ∧ (i = 63 → t.seq = .aSwpEnd) ∧
      Unchanged [.store, .sequencer] s t) ∧
    (s.seq = .aSwpEnd → ∃ t, agentStep (.fg d) s = .next t ∧ t.seq = .rb 1 0 ∧
      t.animationState.toNat =
        (if s.animS.toNat ≤ 12 then s.animS.toNat + 1 else if s.animS.toNat = 13 then 0 else 1) ∧
      Unchanged [.animationState, .sequencer] s t)

/-- R105: period 14, and the index sequence over one period. -/
def Obligations.SweepHasPeriodFourteen : Prop :=
  (∀ (s : State) (x : Byte), x.toNat ≤ 13 →
    let next := fun y : Byte => (stepASwpEnd { s with animS := y }).animationState
    next^[14] x = x ∧ ∀ n : Nat, 0 < n → n < 14 → next^[n] x ≠ x) ∧
  (List.range 14).map sweepIndex = [0, 1, 2, 3, 2, 1, 0, 0, 1, 2, 3, 2, 1, 0] ∧
  (∀ i : Fin 64, sweepLit 0 i = sweepLit 6 i ∧ sweepLit 7 i = sweepLit 13 i)

/-- R106: the pseudocode and the state written of Chase. -/
def Obligations.ChaseClearsThenSets : Prop :=
  ∀ (s : State) (d : BitVec 2) (L : Layer),
    (s.seq = .aChs L 0 → ∃ t, agentStep (.fg d) s = .next t ∧
      StoredOnly (16 * L.val + (s.animS.toNat % 16 + 15) % 16) 0x00#8 s t ∧ t.seq = .aChs L 1 ∧
      Unchanged [.store, .sequencer] s t) ∧
    (s.seq = .aChs L 1 → ∃ t, agentStep (.fg d) s = .next t ∧
      StoredOnly (16 * L.val + s.animS.toNat % 16) s.cfg.val.maxBright s t ∧
      (∀ M : Layer, M.val = L.val + 1 → t.seq = .aChs M 0) ∧ (L = 3 → t.seq = .aChsEnd) ∧
      Unchanged [.store, .sequencer] s t) ∧
    (s.seq = .aChsEnd → ∃ t, agentStep (.fg d) s = .next t ∧ t.seq = .rb 1 0 ∧
      t.animationState.toNat = (s.animS.toNat % 16 + 1) % 16 ∧ Unchanged [.animationState, .sequencer] s t)

/-- R107: one Chase tick, run without interruption, on a layer that is all zero or whose one lit voxel is the position
the tick before left, leaves exactly one lit voxel, at the new `animation_state` - 1 modulo 16. -/
def Obligations.ChaseTickKeepsOneVoxelLit : Prop :=
  ∀ (s : State) (draws : List (BitVec 2)) (rest : List Event) (L : Layer),
    s.seq = .aBegin → s.animationId = 2 → s.animationState.toNat ≤ 15 →
    draws.length = 10 → s.agenda = draws.map .fg ++ rest →
    ((∀ p : Pos, s.read (voxelAddr L p) = 0x00#8) ∨
      (∀ p : Pos, s.read (voxelAddr L p) ≠ 0x00#8 ↔ p.val = (s.animationState.toNat + 15) % 16)) →
    ∃ t, Host.Core.run Sys2Proof.core 10 s = .next t ∧ t.seq = .rb 1 0 ∧ t.animationId = 2 ∧
      t.animationState.toNat = (s.animationState.toNat + 1) % 16 ∧
      ∀ p : Pos, t.read (voxelAddr L p) ≠ 0x00#8 ↔ p.val = (t.animationState.toNat + 15) % 16

/-- R126. -/
def Obligations.ButtonCheckDecides : Prop :=
  ∀ (s : State) (d : BitVec 2) (k : Ctx), s.seq = .bSample k →
    ∃ t, agentStep (.fg d) s = .next t ∧ Unchanged [.buttonTimeout, .sequencer] s t ∧
      (let exit := match k with | .frame => MicroStep.rb 2 0 | .idle => .loop
       (s.btn = true → t.buttonTimeout = 255#8 ∧ t.seq = exit) ∧
       (s.btn = false → t.buttonTimeout.toNat = s.buttonTimeout.toNat - 1 ∧
        (let dec := 0 < s.buttonTimeout.toNat
         let now := t.buttonTimeout.toNat
         t.seq =
           if s.on = true then
             if now = 0 ∧ (dec ∨ s.cfg.val.floorRetrigger = true) then .bOff k
             else if now = 250 then .bClr k 0 else exit
           else if now = 200 ∧ dec then .bOn k else exit)))

/-- R127: the pseudocode and the state written of the button's actions. -/
def Obligations.ButtonActionsWriteWhatTheyName : Prop :=
  ∀ (s : State) (d : BitVec 2) (k : Ctx),
    let exit := match k with | .frame => MicroStep.rb 2 0 | .idle => .loop
    (s.seq = .bOff k → ∃ t, agentStep (.fg d) s = .next t ∧ t.on = false ∧ t.seq = exit ∧
      Unchanged [.power, .sequencer] s t) ∧
    (s.seq = .bOn k → ∃ t, agentStep (.fg d) s = .next t ∧ t.on = true ∧ t.seq = exit ∧
      Unchanged [.power, .sequencer] s t) ∧
    (∀ i : Fin 64, s.seq = .bClr k i → ∃ t, agentStep (.fg d) s = .next t ∧ StoredOnly i.val 0x00#8 s t ∧
      (∀ j : Fin 64, j.val = i.val + 1 → t.seq = .bClr k j) ∧ (i = 63 → t.seq = .bARead k) ∧
      Unchanged [.store, .sequencer] s t) ∧
    (s.seq = .bARead k → ∃ t, agentStep (.fg d) s = .next t ∧ t.tmp.toNat = s.animationId.val ∧
      t.seq = .bAWrite k ∧ Unchanged [.tmp, .sequencer] s t) ∧
    (s.seq = .bAWrite k → ∃ t, agentStep (.fg d) s = .next t ∧ t.animationId.val = (s.tmp.toNat + 1) % 4 ∧
      t.seq = exit ∧ Unchanged [.animationId, .sequencer] s t)

/-- R129: the hold counter after n checks of a press held from release, the checks that act for a press that keeps its
power state, the press that powers on at check 55 and is held on, and that a release resets the counter. -/
def Obligations.HeldButtonActsOncePerThreshold : Prop :=
  ∀ (retrigger on : Bool) (n : Nat),
    ((fun t => (buttonCheck retrigger false on t).1)^[n] 255#8).toNat = 255 - n ∧
    (on = true → n < 255 →
      (buttonCheck retrigger false true ((fun t => (buttonCheck retrigger false true t).1)^[n] 255#8)).2 =
        if n = 4 then .clear else if n = 254 then .off else .exit) ∧
    (on = false →
      (buttonCheck retrigger false false ((fun t => (buttonCheck retrigger false false t).1)^[n] 255#8)).2 =
        if n = 54 then .on else .exit) ∧
    (let held := fun x : Bool × Byte =>
       let r := buttonCheck retrigger false x.1 x.2
       (if r.2 = .on then true else if r.2 = .off then false else x.1, r.1)
     let now := held^[n] (false, 255#8)
     now.1 = decide (55 ≤ n ∧ n < 255) ∧ now.2.toNat = 255 - n ∧
     (buttonCheck retrigger false now.1 now.2).2 = if n = 54 then .on else if n = 254 then .off else .exit) ∧
    ∀ t : Byte, buttonCheck retrigger true on t = (255#8, .exit)

/-! ## The host's side -/

/-- R110, and of R125 what a BTN step does. -/
def Obligations.InputsWriteTheirRegistersOnly : Prop :=
  ∀ s : State,
    (∀ v : Byte, s.rxFull = false → ∃ t, agentStep (.host v) s = .next t ∧ t.rxBuf = v ∧ t.rxFull = true ∧
      Unchanged [.rxBuf, .rxFull] s t) ∧
    (∀ v : Byte, s.rxFull = true → ∃ t, agentStep (.host v) s = .next t ∧
      t.trace = s.trace ++ [.rxOverrun v] ∧ Unchanged [.trace] s t) ∧
    (∀ level : Bool, ∃ t, agentStep (.btn level) s = .next t ∧ t.btn = level ∧ Unchanged [.button] s t)

/-- R110, R111, R152: of two bytes that arrive before the handler runs, the first is executed and the second never is. -/
def Obligations.SecondUnconsumedByteIsLost : Prop :=
  ∀ (s : State) (v w : Byte) (rest : List Event), s.rxFull = false → s.ie = true →
    s.agenda = .host v :: .host w :: .rxh :: rest →
    Host.Core.run Sys2Proof.core 3 s =
      exec (decodeByte v) { s with agenda := rest, rxBuf := v, trace := s.trace ++ [.rxOverrun w] }

/-! ## The ideal timing -/

/-- R89, R90 (derived timing, under R89's conditions as `idealStep` and `FrameStart` fix them, log 13: no byte arrives and
the button is released): from a frame's start at `tcnt = 0` to
the next one is one counter period, and a voxel whose words hold the bits of `v` is lit for the sum of the durations of
the slots of its set bits: at COUNTER_PERIOD 508, for exactly `v[6:0]` ticks. -/
def Obligations.IdealFrameIsExactModulation : Prop :=
  ∀ s : State, Invariants s → FrameStart s → ∃ n, ∀ draws : List (BitVec 2), draws.length = n →
    let t := idealRun draws s
    t.seq = .fWait 0 0 ∧ t.tcnt = 0 ∧ idealTicks draws s = s.cfg.val.counterPeriod ∧
    ∀ (L : Layer) (p : Pos) (v : Byte),
      (∀ b : Plane, (s.plane L b).getLsbD (s.cfg.val.wire p).val = v.getLsbD b.val) →
      idealLitTicks L p draws s =
        ((List.finRange 7).map fun b : Plane =>
          if v.getLsbD b.val then slotTicks s.cfg.val.counterPeriod L b else 0).sum ∧
      (s.cfg.val.counterPeriod = 508 → idealLitTicks L p draws s = v.toNat % 128)

/-- R89, R150: the ideal run (log 13) from a frame's start, however long, keeps to the three parts of TIMING_CONTRACT as
Sys2Proof/Safety.lean reads them (log 15). -/
def Obligations.IdealRunKeepsTheTimingContract : Prop :=
  ∀ (s : State) (draws : List (BitVec 2)), Invariants s → FrameStart s → TimingContract (idealStates draws s)
end

