-- ==== Sys2Proof/Laws/State.lean ====
section
/-! SUPPORT. One lemma per field per named update of the state, so that no later proof unfolds one. -/

namespace Sys2Proof.Machine

open Sys2Proof

variable (s : State)

section

@[simp] theorem write_cfg (a : Nat) (v : Byte) : (s.write a v).cfg = s.cfg := rfl
@[simp] theorem write_mem (a : Nat) (v : Byte) : (s.write a v).mem = s.mem.write (a % 64) v := rfl
@[simp] theorem write_pl (a : Nat) (v : Byte) : (s.write a v).pl = s.pl := rfl
@[simp] theorem write_sr (a : Nat) (v : Byte) : (s.write a v).sr = s.sr := rfl
@[simp] theorem write_out (a : Nat) (v : Byte) : (s.write a v).out = s.out := rfl
@[simp] theorem write_en (a : Nat) (v : Byte) : (s.write a v).en = s.en := rfl
@[simp] theorem write_seq (a : Nat) (v : Byte) : (s.write a v).seq = s.seq := rfl
@[simp] theorem write_ie (a : Nat) (v : Byte) : (s.write a v).ie = s.ie := rfl
@[simp] theorem write_tcnt (a : Nat) (v : Byte) : (s.write a v).tcnt = s.tcnt := rfl
@[simp] theorem write_tov (a : Nat) (v : Byte) : (s.write a v).tov = s.tov := rfl
@[simp] theorem write_on (a : Nat) (v : Byte) : (s.write a v).on = s.on := rfl
@[simp] theorem write_animationId (a : Nat) (v : Byte) : (s.write a v).animationId = s.animationId := rfl
@[simp] theorem write_animationState (a : Nat) (v : Byte) : (s.write a v).animationState = s.animationState := rfl
@[simp] theorem write_usartTimeout (a : Nat) (v : Byte) : (s.write a v).usartTimeout = s.usartTimeout := rfl
@[simp] theorem write_buttonTimeout (a : Nat) (v : Byte) : (s.write a v).buttonTimeout = s.buttonTimeout := rfl
@[simp] theorem write_cursor (a : Nat) (v : Byte) : (s.write a v).cursor = s.cursor := rfl
@[simp] theorem write_rxBuf (a : Nat) (v : Byte) : (s.write a v).rxBuf = s.rxBuf := rfl
@[simp] theorem write_rxFull (a : Nat) (v : Byte) : (s.write a v).rxFull = s.rxFull := rfl
@[simp] theorem write_tmp (a : Nat) (v : Byte) : (s.write a v).tmp = s.tmp := rfl
@[simp] theorem write_animS (a : Nat) (v : Byte) : (s.write a v).animS = s.animS := rfl
@[simp] theorem write_btn (a : Nat) (v : Byte) : (s.write a v).btn = s.btn := rfl
@[simp] theorem write_trace (a : Nat) (v : Byte) : (s.write a v).trace = s.trace := rfl
@[simp] theorem write_zeroMissed (a : Nat) (v : Byte) : (s.write a v).zeroMissed = s.zeroMissed := rfl
@[simp] theorem write_agenda (a : Nat) (v : Byte) : (s.write a v).agenda = s.agenda := rfl
@[simp] theorem write_freeIdx (a : Nat) (v : Byte) : (s.write a v).freeIdx = s.freeIdx := rfl

end

section

@[simp] theorem clearStore_cfg : (s.clearStore).cfg = s.cfg := by simp only [State.clearStore]
@[simp] theorem clearStore_mem : (s.clearStore).mem = s.mem.clear := by simp only [State.clearStore]
@[simp] theorem clearStore_pl : (s.clearStore).pl = s.pl := by simp only [State.clearStore]
@[simp] theorem clearStore_sr : (s.clearStore).sr = s.sr := by simp only [State.clearStore]
@[simp] theorem clearStore_out : (s.clearStore).out = s.out := by simp only [State.clearStore]
@[simp] theorem clearStore_en : (s.clearStore).en = s.en := by simp only [State.clearStore]
@[simp] theorem clearStore_seq : (s.clearStore).seq = s.seq := by simp only [State.clearStore]
@[simp] theorem clearStore_ie : (s.clearStore).ie = s.ie := by simp only [State.clearStore]
@[simp] theorem clearStore_tcnt : (s.clearStore).tcnt = s.tcnt := by simp only [State.clearStore]
@[simp] theorem clearStore_tov : (s.clearStore).tov = s.tov := by simp only [State.clearStore]
@[simp] theorem clearStore_on : (s.clearStore).on = s.on := by simp only [State.clearStore]
@[simp] theorem clearStore_animationId : (s.clearStore).animationId = s.animationId := by simp only [State.clearStore]
@[simp] theorem clearStore_animationState : (s.clearStore).animationState = s.animationState := by simp only [State.clearStore]
@[simp] theorem clearStore_usartTimeout : (s.clearStore).usartTimeout = s.usartTimeout := by simp only [State.clearStore]
@[simp] theorem clearStore_buttonTimeout : (s.clearStore).buttonTimeout = s.buttonTimeout := by simp only [State.clearStore]
@[simp] theorem clearStore_cursor : (s.clearStore).cursor = s.cursor := by simp only [State.clearStore]
@[simp] theorem clearStore_rxBuf : (s.clearStore).rxBuf = s.rxBuf := by simp only [State.clearStore]
@[simp] theorem clearStore_rxFull : (s.clearStore).rxFull = s.rxFull := by simp only [State.clearStore]
@[simp] theorem clearStore_tmp : (s.clearStore).tmp = s.tmp := by simp only [State.clearStore]
@[simp] theorem clearStore_animS : (s.clearStore).animS = s.animS := by simp only [State.clearStore]
@[simp] theorem clearStore_btn : (s.clearStore).btn = s.btn := by simp only [State.clearStore]
@[simp] theorem clearStore_trace : (s.clearStore).trace = s.trace := by simp only [State.clearStore]
@[simp] theorem clearStore_zeroMissed : (s.clearStore).zeroMissed = s.zeroMissed := by simp only [State.clearStore]
@[simp] theorem clearStore_agenda : (s.clearStore).agenda = s.agenda := by simp only [State.clearStore]
@[simp] theorem clearStore_freeIdx : (s.clearStore).freeIdx = s.freeIdx := by simp only [State.clearStore]

end

section

@[simp] theorem goto_cfg (m : MicroStep) : (s.goto m).cfg = s.cfg := rfl
@[simp] theorem goto_mem (m : MicroStep) : (s.goto m).mem = s.mem := rfl
@[simp] theorem goto_pl (m : MicroStep) : (s.goto m).pl = s.pl := rfl
@[simp] theorem goto_sr (m : MicroStep) : (s.goto m).sr = s.sr := rfl
@[simp] theorem goto_out (m : MicroStep) : (s.goto m).out = s.out := rfl
@[simp] theorem goto_en (m : MicroStep) : (s.goto m).en = s.en := rfl
@[simp] theorem goto_seq (m : MicroStep) : (s.goto m).seq = m := rfl
@[simp] theorem goto_ie (m : MicroStep) : (s.goto m).ie = s.ie := rfl
@[simp] theorem goto_tcnt (m : MicroStep) : (s.goto m).tcnt = s.tcnt := rfl
@[simp] theorem goto_tov (m : MicroStep) : (s.goto m).tov = s.tov := rfl
@[simp] theorem goto_on (m : MicroStep) : (s.goto m).on = s.on := rfl
@[simp] theorem goto_animationId (m : MicroStep) : (s.goto m).animationId = s.animationId := rfl
@[simp] theorem goto_animationState (m : MicroStep) : (s.goto m).animationState = s.animationState := rfl
@[simp] theorem goto_usartTimeout (m : MicroStep) : (s.goto m).usartTimeout = s.usartTimeout := rfl
@[simp] theorem goto_buttonTimeout (m : MicroStep) : (s.goto m).buttonTimeout = s.buttonTimeout := rfl
@[simp] theorem goto_cursor (m : MicroStep) : (s.goto m).cursor = s.cursor := rfl
@[simp] theorem goto_rxBuf (m : MicroStep) : (s.goto m).rxBuf = s.rxBuf := rfl
@[simp] theorem goto_rxFull (m : MicroStep) : (s.goto m).rxFull = s.rxFull := rfl
@[simp] theorem goto_tmp (m : MicroStep) : (s.goto m).tmp = s.tmp := rfl
@[simp] theorem goto_animS (m : MicroStep) : (s.goto m).animS = s.animS := rfl
@[simp] theorem goto_btn (m : MicroStep) : (s.goto m).btn = s.btn := rfl
@[simp] theorem goto_trace (m : MicroStep) : (s.goto m).trace = s.trace := rfl
@[simp] theorem goto_zeroMissed (m : MicroStep) : (s.goto m).zeroMissed = s.zeroMissed := rfl
@[simp] theorem goto_agenda (m : MicroStep) : (s.goto m).agenda = s.agenda := rfl
@[simp] theorem goto_freeIdx (m : MicroStep) : (s.goto m).freeIdx = s.freeIdx := rfl

end

section

@[simp] theorem record_cfg (e : SilentEvent) : (s.record e).cfg = s.cfg := rfl
@[simp] theorem record_mem (e : SilentEvent) : (s.record e).mem = s.mem := rfl
@[simp] theorem record_pl (e : SilentEvent) : (s.record e).pl = s.pl := rfl
@[simp] theorem record_sr (e : SilentEvent) : (s.record e).sr = s.sr := rfl
@[simp] theorem record_out (e : SilentEvent) : (s.record e).out = s.out := rfl
@[simp] theorem record_en (e : SilentEvent) : (s.record e).en = s.en := rfl
@[simp] theorem record_seq (e : SilentEvent) : (s.record e).seq = s.seq := rfl
@[simp] theorem record_ie (e : SilentEvent) : (s.record e).ie = s.ie := rfl
@[simp] theorem record_tcnt (e : SilentEvent) : (s.record e).tcnt = s.tcnt := rfl
@[simp] theorem record_tov (e : SilentEvent) : (s.record e).tov = s.tov := rfl
@[simp] theorem record_on (e : SilentEvent) : (s.record e).on = s.on := rfl
@[simp] theorem record_animationId (e : SilentEvent) : (s.record e).animationId = s.animationId := rfl
@[simp] theorem record_animationState (e : SilentEvent) : (s.record e).animationState = s.animationState := rfl
@[simp] theorem record_usartTimeout (e : SilentEvent) : (s.record e).usartTimeout = s.usartTimeout := rfl
@[simp] theorem record_buttonTimeout (e : SilentEvent) : (s.record e).buttonTimeout = s.buttonTimeout := rfl
@[simp] theorem record_cursor (e : SilentEvent) : (s.record e).cursor = s.cursor := rfl
@[simp] theorem record_rxBuf (e : SilentEvent) : (s.record e).rxBuf = s.rxBuf := rfl
@[simp] theorem record_rxFull (e : SilentEvent) : (s.record e).rxFull = s.rxFull := rfl
@[simp] theorem record_tmp (e : SilentEvent) : (s.record e).tmp = s.tmp := rfl
@[simp] theorem record_animS (e : SilentEvent) : (s.record e).animS = s.animS := rfl
@[simp] theorem record_btn (e : SilentEvent) : (s.record e).btn = s.btn := rfl
@[simp] theorem record_trace (e : SilentEvent) : (s.record e).trace = s.trace ++ [e] := rfl
@[simp] theorem record_zeroMissed (e : SilentEvent) : (s.record e).zeroMissed = s.zeroMissed := rfl
@[simp] theorem record_agenda (e : SilentEvent) : (s.record e).agenda = s.agenda := rfl
@[simp] theorem record_freeIdx (e : SilentEvent) : (s.record e).freeIdx = s.freeIdx := rfl

end

section

@[simp] theorem setEnable_cfg (L : Layer) (x : Bool) : (s.setEnable L x).cfg = s.cfg := rfl
@[simp] theorem setEnable_mem (L : Layer) (x : Bool) : (s.setEnable L x).mem = s.mem := rfl
@[simp] theorem setEnable_pl (L : Layer) (x : Bool) : (s.setEnable L x).pl = s.pl := rfl
@[simp] theorem setEnable_sr (L : Layer) (x : Bool) : (s.setEnable L x).sr = s.sr := rfl
@[simp] theorem setEnable_out (L : Layer) (x : Bool) : (s.setEnable L x).out = s.out := rfl
@[simp] theorem setEnable_en (L : Layer) (x : Bool) : (s.setEnable L x).en = s.en.set L.val x := rfl
@[simp] theorem setEnable_seq (L : Layer) (x : Bool) : (s.setEnable L x).seq = s.seq := rfl
@[simp] theorem setEnable_ie (L : Layer) (x : Bool) : (s.setEnable L x).ie = s.ie := rfl
@[simp] theorem setEnable_tcnt (L : Layer) (x : Bool) : (s.setEnable L x).tcnt = s.tcnt := rfl
@[simp] theorem setEnable_tov (L : Layer) (x : Bool) : (s.setEnable L x).tov = s.tov := rfl
@[simp] theorem setEnable_on (L : Layer) (x : Bool) : (s.setEnable L x).on = s.on := rfl
@[simp] theorem setEnable_animationId (L : Layer) (x : Bool) : (s.setEnable L x).animationId = s.animationId := rfl
@[simp] theorem setEnable_animationState (L : Layer) (x : Bool) : (s.setEnable L x).animationState = s.animationState := rfl
@[simp] theorem setEnable_usartTimeout (L : Layer) (x : Bool) : (s.setEnable L x).usartTimeout = s.usartTimeout := rfl
@[simp] theorem setEnable_buttonTimeout (L : Layer) (x : Bool) : (s.setEnable L x).buttonTimeout = s.buttonTimeout := rfl
@[simp] theorem setEnable_cursor (L : Layer) (x : Bool) : (s.setEnable L x).cursor = s.cursor := rfl
@[simp] theorem setEnable_rxBuf (L : Layer) (x : Bool) : (s.setEnable L x).rxBuf = s.rxBuf := rfl
@[simp] theorem setEnable_rxFull (L : Layer) (x : Bool) : (s.setEnable L x).rxFull = s.rxFull := rfl
@[simp] theorem setEnable_tmp (L : Layer) (x : Bool) : (s.setEnable L x).tmp = s.tmp := rfl
@[simp] theorem setEnable_animS (L : Layer) (x : Bool) : (s.setEnable L x).animS = s.animS := rfl
@[simp] theorem setEnable_btn (L : Layer) (x : Bool) : (s.setEnable L x).btn = s.btn := rfl
@[simp] theorem setEnable_trace (L : Layer) (x : Bool) : (s.setEnable L x).trace = s.trace := rfl
@[simp] theorem setEnable_zeroMissed (L : Layer) (x : Bool) : (s.setEnable L x).zeroMissed = s.zeroMissed := rfl
@[simp] theorem setEnable_agenda (L : Layer) (x : Bool) : (s.setEnable L x).agenda = s.agenda := rfl
@[simp] theorem setEnable_freeIdx (L : Layer) (x : Bool) : (s.setEnable L x).freeIdx = s.freeIdx := rfl

end

@[simp] theorem takeByte_fst : s.takeByte.1 = s.rxBuf := rfl

@[simp] theorem takeByte_snd : s.takeByte.2 = { s with rxFull := false } := rfl

@[simp] theorem returnFromHandler_eq : s.returnFromHandler = s := rfl

@[simp] theorem returning_eq (o : Host.Outcome State Fault Refusal) : returning o = o := by cases o <;> rfl

@[simp] theorem enabled_goto (m : MicroStep) (L : Layer) : (s.goto m).enabled L = s.enabled L := rfl

@[simp] theorem read_goto (m : MicroStep) (a : Nat) : (s.goto m).read a = s.read a := rfl

@[simp] theorem read_record (e : SilentEvent) (a : Nat) : (s.record e).read a = s.read a := rfl

@[simp] theorem read_setEnable (L : Layer) (x : Bool) (a : Nat) : (s.setEnable L x).read a = s.read a := rfl

end Sys2Proof.Machine
end

