-- ==== Sys2Proof/Laws/Memory.lean ====
section
/-! SUPPORT. The laws of the intensity store: reading after writing, the canonical form kept by every operation, and that it is canonical. -/

namespace Sys2Proof.Machine

open Sys2Proof

namespace Memory

@[simp] theorem read_nil (a : Nat) : Memory.read [] a = Memory.unlisted := rfl

theorem read_cons (c : Host.Cell) (m : Memory) (a : Nat) :
    Memory.read (c :: m) a = if c.1 = a then c.2 else Memory.read m a := rfl

theorem read_insert_same (m : Memory) (a : Nat) (v : Byte) (h : ∀ c ∈ m, c.1 ≠ a) :
    (Memory.insert a v m).read a = v := by
  induction m with
  | nil => simp [Memory.insert, read_cons]
  | cons c m ih =>
    have hc : c.1 ≠ a := h c (by simp)
    unfold Memory.insert
    split
    · simp [read_cons]
    · rw [read_cons, if_neg hc]
      exact ih fun d hd => h d (by simp [hd])

theorem read_insert_other (m : Memory) (a b : Nat) (v : Byte) (h : b ≠ a) :
    (Memory.insert a v m).read b = m.read b := by
  induction m with
  | nil => simp [Memory.insert, read_cons, h.symm]
  | cons c m ih =>
    unfold Memory.insert
    split
    · rw [read_cons, if_neg h.symm]
    · simp only [read_cons, ih]

theorem read_filter_same (m : Memory) (a : Nat) :
    Memory.read (m.filter fun c => c.1 != a) a = Memory.unlisted := by
  induction m with
  | nil => rfl
  | cons c m ih =>
    rw [List.filter_cons]
    split
    · rename_i hc
      rw [read_cons, if_neg (by simpa using hc), ih]
    · exact ih

theorem read_filter_other (m : Memory) (a b : Nat) (h : b ≠ a) :
    Memory.read (m.filter fun c => c.1 != a) b = m.read b := by
  induction m with
  | nil => rfl
  | cons c m ih =>
    rw [List.filter_cons]
    split
    · simp only [read_cons, ih]
    · rename_i hc
      have : c.1 = a := by simpa using hc
      rw [read_cons, if_neg (by omega), ih]

/-- What was written is read back. -/
@[simp] theorem read_write_same (m : Memory) (a : Nat) (v : Byte) : (m.write a v).read a = v := by
  unfold Memory.write
  split
  · rename_i hv
    rw [read_filter_same, hv]
  · exact read_insert_same _ _ _ fun c hc => by simpa using (List.mem_filter.mp hc).2

/-- A write leaves every other address alone. -/
theorem read_write_other (m : Memory) (a b : Nat) (v : Byte) (h : b ≠ a) :
    (m.write a v).read b = m.read b := by
  unfold Memory.write
  split
  · exact read_filter_other m a b h
  · rw [read_insert_other _ _ _ _ h, read_filter_other m a b h]

theorem wfFrom_mono {m : Memory} {lo hi : Nat} (h : Memory.wfFrom hi m = true) (hl : lo ≤ hi) :
    Memory.wfFrom lo m = true := by
  cases m with
  | nil => rfl
  | cons c m =>
    simp only [Memory.wfFrom, Bool.and_eq_true, decide_eq_true_eq] at h ⊢
    obtain ⟨⟨⟨h1, h2⟩, h3⟩, h4⟩ := h
    exact ⟨⟨⟨by omega, h2⟩, h3⟩, h4⟩

theorem wfFrom_filter {m : Memory} {lo : Nat} (a : Nat) (h : Memory.wfFrom lo m = true) :
    Memory.wfFrom lo (m.filter fun c => c.1 != a) = true := by
  induction m generalizing lo with
  | nil => rfl
  | cons c m ih =>
    simp only [Memory.wfFrom, Bool.and_eq_true, decide_eq_true_eq] at h
    obtain ⟨⟨⟨h1, h2⟩, h3⟩, h4⟩ := h
    rw [List.filter_cons]
    split
    · simp only [Memory.wfFrom, Bool.and_eq_true, decide_eq_true_eq]
      exact ⟨⟨⟨h1, h2⟩, h3⟩, ih h4⟩
    · exact wfFrom_mono (ih h4) (by omega)

theorem wfFrom_insert {m : Memory} {lo a : Nat} {v : Byte} (h : Memory.wfFrom lo m = true)
    (hlo : lo ≤ a) (ha : a < 64) (hv : v ≠ Memory.unlisted) (hn : ∀ c ∈ m, c.1 ≠ a) :
    Memory.wfFrom lo (Memory.insert a v m) = true := by
  induction m generalizing lo with
  | nil => simp [Memory.insert, Memory.wfFrom, hlo, ha, hv]
  | cons c m ih =>
    have hc : c.1 ≠ a := hn c (by simp)
    simp only [Memory.wfFrom, Bool.and_eq_true, decide_eq_true_eq] at h
    obtain ⟨⟨⟨h1, h2⟩, h3⟩, h4⟩ := h
    unfold Memory.insert
    split
    · simp only [Memory.wfFrom, Bool.and_eq_true, decide_eq_true_eq, bne_iff_ne]
      exact ⟨⟨⟨hlo, ha⟩, hv⟩, ⟨⟨by omega, h2⟩, by simpa using h3⟩, h4⟩
    · simp only [Memory.wfFrom, Bool.and_eq_true, decide_eq_true_eq]
      exact ⟨⟨⟨h1, h2⟩, h3⟩, ih h4 (by omega) fun d hd => hn d (by simp [hd])⟩

/-- A write inside the store keeps the canonical form. -/
theorem wf_write {m : Memory} {a : Nat} (v : Byte) (h : m.wf = true) (ha : a < 64) :
    (m.write a v).wf = true := by
  unfold Memory.write
  split
  · exact wfFrom_filter a h
  · rename_i hv
    exact wfFrom_insert (wfFrom_filter a h) (by omega) ha hv fun c hc => by
      simpa using (List.mem_filter.mp hc).2

theorem write_zero (m : Memory) (a : Nat) :
    m.write a 0x00#8 = m.filter fun c => c.1 != a := by simp [Memory.write, Memory.unlisted]

theorem wf_writes_zero (as : List Nat) (m : Memory) (h : m.wf = true) :
    (as.foldl (fun m a => m.write a 0x00#8) m).wf = true := by
  induction as generalizing m with
  | nil => exact h
  | cons a as ih =>
    rw [List.foldl_cons, write_zero]
    exact ih _ (wfFrom_filter a h)

/-- The bulk clear keeps the canonical form. -/
theorem wf_clear {m : Memory} (h : m.wf = true) : m.clear.wf = true := wf_writes_zero _ m h

theorem read_writes_zero (as : List Nat) (m : Memory) (a : Nat) :
    (as.foldl (fun m a => m.write a 0x00#8) m).read a = if a ∈ as then 0x00#8 else m.read a := by
  induction as generalizing m with
  | nil => simp
  | cons b as ih =>
    rw [List.foldl_cons, ih]
    by_cases hb : a = b
    · subst hb; simp
    · simp [hb, read_write_other m b a _ hb]

/-- After the bulk clear every address of the store reads 0. -/
theorem read_clear (m : Memory) {a : Nat} (ha : a < 64) : m.clear.read a = 0x00#8 := by
  rw [Memory.clear, read_writes_zero, if_pos (List.mem_range.mpr ha)]

theorem read_eq_unlisted {m : Memory} {lo a : Nat} (h : Memory.wfFrom lo m = true) (ha : a < lo) :
    m.read a = Memory.unlisted := by
  induction m generalizing lo with
  | nil => rfl
  | cons c m ih =>
    simp only [Memory.wfFrom, Bool.and_eq_true, decide_eq_true_eq] at h
    rw [read_cons, if_neg (by omega)]
    exact ih h.2 (by omega)

/-- The form is canonical: two stores in it that read alike are the same list. -/
theorem ext_of_wfFrom {m n : Memory} {lo : Nat} (hm : Memory.wfFrom lo m = true)
    (hn : Memory.wfFrom lo n = true) (h : ∀ a, m.read a = n.read a) : m = n := by
  induction m generalizing n lo with
  | nil =>
    cases n with
    | nil => rfl
    | cons d n =>
      have hd := h d.1
      simp only [Memory.wfFrom, Bool.and_eq_true, bne_iff_ne] at hn
      rw [read_cons, if_pos rfl] at hd
      exact absurd hd.symm hn.1.2
  | cons c m ih =>
    simp only [Memory.wfFrom, Bool.and_eq_true, decide_eq_true_eq, bne_iff_ne] at hm
    cases n with
    | nil =>
      have hc := h c.1
      rw [read_cons, if_pos rfl] at hc
      exact absurd hc hm.1.2
    | cons d n =>
      simp only [Memory.wfFrom, Bool.and_eq_true, decide_eq_true_eq, bne_iff_ne] at hn
      have key : c.1 = d.1 := by
        rcases Nat.lt_trichotomy c.1 d.1 with hlt | heq | hgt
        · have hc := h c.1
          rw [read_cons, if_pos rfl, read_cons, if_neg (by omega), read_eq_unlisted hn.2 (by omega)] at hc
          exact absurd hc hm.1.2
        · exact heq
        · have hd := h d.1
          rw [read_cons, if_neg (by omega), read_cons, if_pos rfl, read_eq_unlisted hm.2 (by omega)] at hd
          exact absurd hd.symm hn.1.2
      have hv : c.2 = d.2 := by
        have hc := h c.1
        rwa [read_cons, if_pos rfl, read_cons, if_pos key.symm] at hc
      have hcd : c = d := Prod.ext key hv
      subst hcd
      congr 1
      refine ih hm.2 hn.2 fun a => ?_
      by_cases ha : c.1 = a
      · rw [read_eq_unlisted hm.2 (by omega), read_eq_unlisted hn.2 (by omega)]
      · have := h a
        rwa [read_cons, if_neg ha, read_cons, if_neg ha] at this

theorem ext_of_wf {m n : Memory} (hm : m.wf = true) (hn : n.wf = true)
    (h : ∀ a, m.read a = n.read a) : m = n := ext_of_wfFrom hm hn h

end Memory

/-- `MemWrite` in one lemma: the written address (modulo 64) reads `v`, every other as before. -/
theorem read_write (s : State) (a x : Nat) (v : Byte) :
    (s.write a v).read x = if x % 64 = a % 64 then v else s.read x := by
  unfold State.read State.write
  split
  · rename_i h; simp [h]
  · rename_i h; exact Memory.read_write_other _ _ _ _ h

/-- The bulk clear in one lemma: every address reads 0. -/
@[simp] theorem read_clearStore (s : State) (x : Nat) : s.clearStore.read x = 0x00#8 := by
  simp only [State.read, clearStore_mem]
  exact Memory.read_clear s.mem (Nat.mod_lt _ (by decide))

theorem write_wf {s : State} (a : Nat) (v : Byte) (h : s.mem.wf = true) : (s.write a v).mem.wf = true :=
  Memory.wf_write v h (Nat.mod_lt _ (by decide))

theorem clearStore_wf {s : State} (h : s.mem.wf = true) : s.clearStore.mem.wf = true := by
  rw [clearStore_mem]
  exact Memory.wf_clear h

theorem reset_memory_wf (c : ValidConfig) (u : Unspecified) : (State.resetWith c u).mem.wf = true := rfl

end Sys2Proof.Machine
end

