-- ==== Sys2Proof/Laws/Ops.lean ====
section
/-! SUPPORT. One lemma for each shared operation: what it does to the bits, words, enables and fields it touches. -/

namespace Sys2Proof.Machine

open Sys2Proof

/-- `w[k] <- x` sets bit `k` and leaves every other bit. -/
@[simp] theorem setBit_getLsbD (w : Word) (k j : Pos) (x : Bool) :
    (setBit w k x).getLsbD j.val = if j = k then x else w.getLsbD j.val := by
  have hj : j.val < 16 := j.isLt
  have hk : k.val < 16 := k.isLt
  unfold setBit
  by_cases h : j = k
  · subst h
    cases x <;> simp [hj]
  · have hne : j.val ≠ k.val := fun e => h (Fin.ext e)
    have hone : (1#16 <<< k.val).getLsbD j.val = false := by
      rw [BitVec.getLsbD_shiftLeft, BitVec.getLsbD_one]
      by_cases hlt : j.val < k.val
      · simp [hlt]
      · have hsub : ¬ j.val - k.val = 0 := by omega
        simp [hsub]
    have hif : (if x then 1#16 <<< k.val else 0#16).getLsbD j.val = false := by
      cases x
      · simp
      · simpa using hone
    rw [BitVec.getLsbD_or, BitVec.getLsbD_and, BitVec.getLsbD_not, hif, hone, if_neg h]
    simp [hj]

/-- Each of the seven words takes the like-numbered bit of `v` at position `k`. -/
theorem setPlanes_get (ws : Vector Word 7) (k : Pos) (v : Byte) (b : Plane) :
    (setPlanes ws k v)[b] = setBit ws[b] k (v.getLsbD b.val) := by
  simp [setPlanes, Vector.getElem_ofFn]

/-- `en[L] <- x` writes that enable and no other. -/
@[simp] theorem enabled_setEnable (s : State) (L M : Layer) (x : Bool) :
    (s.setEnable L x).enabled M = if M = L then x else s.enabled M := by
  unfold State.setEnable State.enabled
  by_cases h : M = L
  · subst h; simp
  · have hne : L.val ≠ M.val := fun e => h (Fin.ext e.symm)
    simp [h, Vector.getElem_set_ne, hne]

/-- The next index is the successor, where there is one. -/
theorem nextIn_eq_some {n : Nat} {i j : Fin n} : nextIn i = some j ↔ j.val = i.val + 1 := by
  unfold nextIn
  constructor
  · intro h
    split at h
    · have := Option.some.inj h
      subst this
      rfl
    · cases h
  · intro h
    have hlt : i.val + 1 < n := h ▸ j.isLt
    rw [dif_pos hlt]
    exact congrArg some (Fin.ext h.symm)

/-- There is no next index exactly after the last. -/
theorem nextIn_eq_none {n : Nat} {i : Fin n} : nextIn i = none ↔ n ≤ i.val + 1 := by
  unfold nextIn
  constructor
  · intro h
    split at h
    · cases h
    · omega
  · intro h
    rw [dif_neg (by omega)]

/-- The saturating decrement, on the counter's value. -/
theorem satDec_toNat (x : Byte) : (satDec x).toNat = x.toNat - 1 := by
  unfold satDec
  split
  · rename_i h; subst h; rfl
  · rename_i h
    have hx : x.toNat ≠ 0 := fun e => h (BitVec.eq_of_toNat_eq (by simpa using e))
    have := x.isLt
    rw [BitVec.toNat_sub]
    simp only [BitVec.toNat_ofNat]
    omega

/-- The next event is the agenda's head, and only the agenda changes. -/
theorem nextEvent_cons {s : State} {e : Event} {rest : List Event} (h : s.agenda = e :: rest) :
    s.nextEvent = (e, { s with agenda := rest }) := by
  unfold State.nextEvent
  rw [h]

/-- Taking the next event changes the agenda and the free value's counter alone. -/
theorem nextEvent_rest (s : State) : ∃ agenda freeIdx, s.nextEvent.2 = { s with agenda := agenda, freeIdx := freeIdx } := by
  unfold State.nextEvent
  split <;> exact ⟨_, _, rfl⟩

/-- With an empty agenda the next event is the free value, and only its counter changes. -/
theorem nextEvent_nil {s : State} (h : s.agenda = []) :
    s.nextEvent = (Config.freeEvent s.freeIdx, { s with freeIdx := s.freeIdx + 1 }) := by
  unfold State.nextEvent
  rw [h]

section

variable (b : Plane) (l : Layer) (s : State)

@[simp] theorem noteLate_cfg : (noteLate b l s).cfg = s.cfg := by
  unfold noteLate; repeat' split
  all_goals rfl

@[simp] theorem noteLate_mem : (noteLate b l s).mem = s.mem := by
  unfold noteLate; repeat' split
  all_goals rfl

@[simp] theorem noteLate_pl : (noteLate b l s).pl = s.pl := by
  unfold noteLate; repeat' split
  all_goals rfl

@[simp] theorem noteLate_sr : (noteLate b l s).sr = s.sr := by
  unfold noteLate; repeat' split
  all_goals rfl

@[simp] theorem noteLate_out : (noteLate b l s).out = s.out := by
  unfold noteLate; repeat' split
  all_goals rfl

@[simp] theorem noteLate_en : (noteLate b l s).en = s.en := by
  unfold noteLate; repeat' split
  all_goals rfl

@[simp] theorem noteLate_seq : (noteLate b l s).seq = s.seq := by
  unfold noteLate; repeat' split
  all_goals rfl

@[simp] theorem noteLate_ie : (noteLate b l s).ie = s.ie := by
  unfold noteLate; repeat' split
  all_goals rfl

@[simp] theorem noteLate_tcnt : (noteLate b l s).tcnt = s.tcnt := by
  unfold noteLate; repeat' split
  all_goals rfl

@[simp] theorem noteLate_tov : (noteLate b l s).tov = s.tov := by
  unfold noteLate; repeat' split
  all_goals rfl

@[simp] theorem noteLate_on : (noteLate b l s).on = s.on := by
  unfold noteLate; repeat' split
  all_goals rfl

@[simp] theorem noteLate_animationId : (noteLate b l s).animationId = s.animationId := by
  unfold noteLate; repeat' split
  all_goals rfl

@[simp] theorem noteLate_animationState : (noteLate b l s).animationState = s.animationState := by
  unfold noteLate; repeat' split
  all_goals rfl

@[simp] theorem noteLate_usartTimeout : (noteLate b l s).usartTimeout = s.usartTimeout := by
  unfold noteLate; repeat' split
  all_goals rfl

@[simp] theorem noteLate_buttonTimeout : (noteLate b l s).buttonTimeout = s.buttonTimeout := by
  unfold noteLate; repeat' split
  all_goals rfl

@[simp] theorem noteLate_cursor : (noteLate b l s).cursor = s.cursor := by
  unfold noteLate; repeat' split
  all_goals rfl

@[simp] theorem noteLate_rxBuf : (noteLate b l s).rxBuf = s.rxBuf := by
  unfold noteLate; repeat' split
  all_goals rfl

@[simp] theorem noteLate_rxFull : (noteLate b l s).rxFull = s.rxFull := by
  unfold noteLate; repeat' split
  all_goals rfl

@[simp] theorem noteLate_tmp : (noteLate b l s).tmp = s.tmp := by
  unfold noteLate; repeat' split
  all_goals rfl

@[simp] theorem noteLate_animS : (noteLate b l s).animS = s.animS := by
  unfold noteLate; repeat' split
  all_goals rfl

@[simp] theorem noteLate_btn : (noteLate b l s).btn = s.btn := by
  unfold noteLate; repeat' split
  all_goals rfl

@[simp] theorem noteLate_agenda : (noteLate b l s).agenda = s.agenda := by
  unfold noteLate; repeat' split
  all_goals rfl

@[simp] theorem noteLate_freeIdx : (noteLate b l s).freeIdx = s.freeIdx := by
  unfold noteLate; repeat' split
  all_goals rfl

end

end Sys2Proof.Machine
end

