-- ==== Sys2Proof/Laws/Exec.lean ====
section
/-! SUPPORT. What a command and a handler turn can do, said once: no command writes a part of the state outside the handler's write set (R34, R111). -/

namespace Sys2Proof.Machine

open Sys2Proof

/-- What no command writes. -/
structure HandlerFrame (s t : State) : Prop where
  cfg : t.cfg = s.cfg
  pl : t.pl = s.pl
  sr : t.sr = s.sr
  out : t.out = s.out
  en : t.en = s.en
  seq : t.seq = s.seq
  ie : t.ie = s.ie
  tcnt : t.tcnt = s.tcnt
  tov : t.tov = s.tov
  animationState : t.animationState = s.animationState
  buttonTimeout : t.buttonTimeout = s.buttonTimeout
  rxBuf : t.rxBuf = s.rxBuf
  rxFull : t.rxFull = s.rxFull
  tmp : t.tmp = s.tmp
  animS : t.animS = s.animS
  btn : t.btn = s.btn
  zeroMissed : t.zeroMissed = s.zeroMissed
  agenda : t.agenda = s.agenda
  freeIdx : t.freeIdx = s.freeIdx

theorem HandlerFrame.refl (s : State) : HandlerFrame s s := by constructor <;> rfl

theorem clearStore_frame (s : State) : HandlerFrame s s.clearStore := by constructor <;> simp

/-- The state a command leaves (R113 to R121). -/
def commandResult (i : Instr) (s : State) : State :=
  match i with
  | .data v => { ({ s with usartTimeout := 255#8 } : State).write s.cursor.toNat v with cursor := s.cursor + 1#6 }
  | .setcur c => { s with cursor := c }
  | .curhome => { s with cursor := 0#6 }
  | .poweroff => { s with on := false }
  | .poweron => { s with on := true }
  | .nextanim => ({ s with animationId := nextAnimation s.animationId.val } : State).clearStore
  | .clear => s.clearStore
  | .ping => { s with usartTimeout := 255#8 }
  | .ctrl6to7 o => s.record (.unknownOpcode o)
  | .ctrl8to15 o => s.record (.unknownOpcode o)
  | .ctrl16to31 o => s.record (.unknownOpcode o)
  | .ctrl32to63 o => s.record (.unknownOpcode o)

/-- Every command answers a next state, and this one. -/
theorem exec_eq (i : Instr) (s : State) : exec i s = .next (commandResult i s) := by cases i <;> rfl

/-- No command writes outside the handler's write set. -/
theorem commandResult_frame (i : Instr) (s : State) : HandlerFrame s (commandResult i s) := by
  cases i with
  | nextanim => constructor <;> simp [commandResult]
  | clear => exact clearStore_frame s
  | _ => constructor <;> rfl

/-- The canonical form survives every command. -/
theorem commandResult_wf (i : Instr) {s : State} (h : s.mem.wf = true) : (commandResult i s).mem.wf = true := by
  cases i with
  | data v => exact write_wf (s := { s with usartTimeout := 255#8 }) _ v h
  | nextanim => exact clearStore_wf h
  | clear => exact clearStore_wf h
  | _ => exact h

/-- A handler turn: nothing without a pending byte and open interrupts, else the decoded command on the state with the
byte consumed. -/
theorem rxhStep_eq (s : State) : rxhStep s = .next
    (if rxhEnabled s then commandResult (decodeByte s.rxBuf) { s with rxFull := false } else s) := by
  unfold rxhStep
  split
  · rw [returning_eq, exec_eq]
    rfl
  · rfl

/-- The state an agent's turn leaves. -/
def turnResult (e : Event) (s : State) : State :=
  match e with
  | .fg draw => fgStep draw s
  | .rxh => if rxhEnabled s then commandResult (decodeByte s.rxBuf) { s with rxFull := false } else s
  | .tick => tickStep s
  | .host v => hostStep v s
  | .btn level => btnStep level s

/-- Every turn of every agent answers a next state, and this one. -/
theorem agentStep_eq (e : Event) (s : State) : agentStep e s = .next (turnResult e s) := by
  cases e with
  | rxh => exact rxhStep_eq s
  | _ => rfl

/-- Every step answers a next state, and this one. -/
theorem step_eq (s : State) : step s = .next (turnResult s.nextEvent.1 s.nextEvent.2) := agentStep_eq _ _

end Sys2Proof.Machine
end

