-- ==== Sys2Proof/Laws/PerInstr.lean ====
section
/-! SUPPORT. A statement per constructor of Instr about its encoding: the two high bits of the byte are its format's (R54). -/

namespace Sys2Proof.Laws

open Sys2Proof

/-- Bits 7:6 of a format of R54. -/
inductive Format where
  | dat
  | ctl
  | cur
deriving DecidableEq, Repr

/-- The format of a row (R56). -/
def formatOf : Instr → Format
  | .data _ => .dat
  | .setcur _ => .cur
  | .curhome => .ctl
  | .poweroff => .ctl
  | .poweron => .ctl
  | .nextanim => .ctl
  | .clear => .ctl
  | .ping => .ctl
  | .ctrl6to7 _ => .ctl
  | .ctrl8to15 _ => .ctl
  | .ctrl16to31 _ => .ctl
  | .ctrl32to63 _ => .ctl

/-- The byte's high bits say the format. -/
def framed (x : Byte) : Format → Bool
  | .dat => !x.getLsbD 7
  | .ctl => x.getLsbD 7 && !x.getLsbD 6
  | .cur => x.getLsbD 7 && x.getLsbD 6

namespace Framing

def Statement (i : Instr) : Prop := i.wf = true → framed (encodeByte i) (formatOf i) = true

theorem data (v : Byte) : Statement (.data v) := by
  intro h
  have hv : v.toNat < 128 := by simpa [Instr.wf] using h
  simp only [framed, formatOf, encodeByte, Bool.not_eq_true', BitVec.getLsbD]
  exact Nat.testBit_lt_two_pow (by omega)

theorem high_cur (c : BitVec 6) : framed (0b11#2 ++ c) .cur = true := by
  simp only [framed, BitVec.getLsbD_append]
  simp

theorem high_ctl (o : BitVec 6) : framed (0b10#2 ++ o) .ctl = true := by
  simp only [framed, BitVec.getLsbD_append]
  simp

theorem setcur (c : BitVec 6) : Statement (.setcur c) := fun _ => high_cur c

theorem curhome : Statement .curhome := fun _ => rfl

theorem poweroff : Statement .poweroff := fun _ => rfl

theorem poweron : Statement .poweron := fun _ => rfl

theorem nextanim : Statement .nextanim := fun _ => rfl

theorem clear : Statement .clear := fun _ => rfl

theorem ping : Statement .ping := fun _ => rfl

theorem ctrl6to7 (o : BitVec 6) : Statement (.ctrl6to7 o) := fun _ => high_ctl o

theorem ctrl8to15 (o : BitVec 6) : Statement (.ctrl8to15 o) := fun _ => high_ctl o

theorem ctrl16to31 (o : BitVec 6) : Statement (.ctrl16to31 o) := fun _ => high_ctl o

theorem ctrl32to63 (o : BitVec 6) : Statement (.ctrl32to63 o) := fun _ => high_ctl o

end Framing

end Sys2Proof.Laws
end

