-- ==== Sys2Proof/Tests/Slice0.lean ====
section
/-! SUPPORT. Small tests, their expected results taken from spec/ (the file and section stand with each group), and for each statement with hypotheses a witness that they can be met. -/

namespace Sys2Proof.Tests

open Sys2Proof Sys2Proof.Machine

/-! ## Helpers -/

/-- 95_test_vectors.md's defaults: identity wiring, period 508. -/
def defaults : Config where
  wiring := #v[0, 1, 2, 3, 4, 5, 6, 7, 8, 9, 10, 11, 12, 13, 14, 15]
  layerLine := #v[0, 1, 2, 3]
  counterPeriod := 508
  counterWidth := 9
  tickTime := 0
  resetOn := true
  floorRetrigger := true
  maxBright := 0xFF#8
  baud := 0

theorem defaults_valid : defaults.valid = true := by decide

/-- The reset state under the defaults. -/
def base : State := State.resetWith ⟨defaults, defaults_valid⟩ Unspecified.chosen

/-- The start state of 95 2.4, its store holding 0x33 where a test looks. -/
def started : State :=
  { base with cursor := 10#6, animationId := 2, animationState := 7#8, usartTimeout := 40#8,
              mem := [(0, 0x33#8), (10, 0x33#8), (63, 0x33#8)] }

/-- The foreground at a micro-step. -/
def atStep (m : MicroStep) : State := { base with seq := m }

/-- The outcome is a next state with the property. -/
def next? (o : Host.Outcome State Fault Refusal) (p : State → Bool) : Bool :=
  match o with
  | .next t => p t
  | .fault _ => false
  | .refused _ => false

/-- One foreground turn, the oracle answering 1. -/
def turn (s : State) : State := fgStep 1#2 s

/-! ## WellFormed refuses an operand outside its row's range (R55, R56, R59) -/

theorem test_wf_data : (Instr.data 127#8).wf = true ∧ (Instr.data 128#8).wf = false := by decide

theorem test_wf_ctrl6to7 : (Instr.ctrl6to7 6#6).wf = true ∧ (Instr.ctrl6to7 5#6).wf = false ∧
    (Instr.ctrl6to7 8#6).wf = false := by decide

theorem test_wf_ctrl8to15 : (Instr.ctrl8to15 15#6).wf = true ∧ (Instr.ctrl8to15 7#6).wf = false ∧
    (Instr.ctrl8to15 16#6).wf = false := by decide

theorem test_wf_ctrl16to31 : (Instr.ctrl16to31 31#6).wf = true ∧ (Instr.ctrl16to31 15#6).wf = false ∧
    (Instr.ctrl16to31 32#6).wf = false := by decide

theorem test_wf_ctrl32to63 : (Instr.ctrl32to63 63#6).wf = true ∧ (Instr.ctrl32to63 31#6).wf = false := by decide

/-! ## Decoding: one word of every row, bit by bit (R54, R56; 95 2.1) -/

theorem test_decode_data : decodeByte 0b00000000#8 = .data 0#8 ∧ decodeByte 0b00111111#8 = .data 63#8 ∧
    decodeByte 0b01111111#8 = .data 127#8 := by decide

theorem test_decode_setcur : decodeByte 0b11000000#8 = .setcur 0#6 ∧ decodeByte 0b11010101#8 = .setcur 21#6 ∧
    decodeByte 0b11111111#8 = .setcur 63#6 := by decide

theorem test_decode_controls : decodeByte 0b10000000#8 = .curhome ∧ decodeByte 0b10000001#8 = .poweroff ∧
    decodeByte 0b10000010#8 = .poweron ∧ decodeByte 0b10000011#8 = .nextanim ∧
    decodeByte 0b10000100#8 = .clear ∧ decodeByte 0b10000101#8 = .ping := by decide

theorem test_decode_reserved : decodeByte 0b10000110#8 = .ctrl6to7 6#6 ∧ decodeByte 0b10000111#8 = .ctrl6to7 7#6 ∧
    decodeByte 0b10001000#8 = .ctrl8to15 8#6 ∧ decodeByte 0b10001111#8 = .ctrl8to15 15#6 ∧
    decodeByte 0b10010000#8 = .ctrl16to31 16#6 ∧ decodeByte 0b10011111#8 = .ctrl16to31 31#6 ∧
    decodeByte 0b10100000#8 = .ctrl32to63 32#6 ∧ decodeByte 0b10111111#8 = .ctrl32to63 63#6 := by decide

/-- R59's encodings, as the table writes them. -/
theorem test_encode : encodeByte (.setcur 62#6) = 0xFE#8 ∧ encodeByte (.ctrl6to7 6#6) = 0x86#8 ∧
    encodeByte (.data 30#8) = 0x1E#8 ∧ encodeByte .clear = 0x84#8 := by decide

theorem test_decode_nothing : decode [] = .error .noByte := rfl

theorem test_table_word : decodeTableWord 8 0x85 = some .ping ∧ decodeTableWord 8 0xFF = some (.setcur 63#6) ∧
    decodeTableWord 16 0x8585 = none := by decide

/-! ## The commands (95 2.4, 1.6, 1.7) -/

theorem test_data : next? (exec (.data 0x7F#8) started)
    (fun t => t.read 10 == 0x7F#8 && t.cursor == 11#6 && t.usartTimeout == 255#8 && t.read 63 == 0x33#8) = true := by
  decide

theorem test_data_wraps : next? (exec (.data 0x40#8) { started with cursor := 63#6 })
    (fun t => t.read 63 == 0x40#8 && t.cursor == 0#6 && t.read 0 == 0x33#8) = true := by decide

theorem test_setcur : next? (exec (.setcur 63#6) started)
    (fun t => t.cursor == 63#6 && t.usartTimeout == 40#8) = true := by decide

theorem test_curhome : next? (exec .curhome started) (fun t => t.cursor == 0#6 && t.usartTimeout == 40#8) = true := by
  decide

theorem test_poweroff : next? (exec .poweroff started) (fun t => !t.on && t.usartTimeout == 40#8) = true := by decide

theorem test_poweron : next? (exec .poweron { started with on := false }) (fun t => t.on) = true := by decide

theorem test_nextanim : next? (exec .nextanim { started with animationId := 3 })
    (fun t => t.animationId == 0 && t.mem == [] && t.animationState == 7#8) = true := by decide

theorem test_clear : next? (exec .clear started) (fun t => t.mem == [] && t.cursor == 10#6 && t.animationId == 2) = true := by
  decide

theorem test_ping : next? (exec .ping started) (fun t => t.usartTimeout == 255#8 && t.cursor == 10#6) = true := by decide

theorem test_ctrl6 : next? (exec (.ctrl6to7 6#6) started)
    (fun t => t == { started with trace := [.unknownOpcode 6#6] }) = true := by decide

theorem test_ctrl63 : next? (exec (.ctrl32to63 63#6) started)
    (fun t => t == { started with trace := [.unknownOpcode 63#6] }) = true := by decide

/-! ## The receive path (95 2.4) -/

theorem test_overrun_keeps_first : hostStep 0x84#8 { base with rxFull := true, rxBuf := 0x05#8 } =
    { base with rxFull := true, rxBuf := 0x05#8, trace := [.rxOverrun 0x84#8] } := by decide

theorem test_masked_handler_holds : next? (agentStep .rxh { base with ie := false, rxFull := true, rxBuf := 0x84#8 })
    (fun t => t.rxFull) = true := by decide

/-- The command runs as the first step after reset, whatever the reset state's open values are. -/
theorem test_first_step_after_reset : next? (step (State.reset.withFetchWord 8 0x12))
    (fun t => t.read 0 == 0x12#8 && t.cursor == 1#6 && !t.rxFull) = true := by decide

/-! ## The scheduler (95 2.5) -/

theorem test_tick_wraps : (tickStep { base with tcnt := 507 }).tcnt = 0 ∧ (tickStep { base with tcnt := 507 }).tov = true := by
  decide

theorem test_tick_counts : (tickStep { base with tcnt := 443 }).tcnt = 444 ∧
    (tickStep { base with tcnt := 443 }).tov = false := by decide

theorem test_loop : (turn base).seq = .fMask ∧ (turn { base with on := false }).seq = .iOff := by decide

theorem test_mask_unmask : (turn (atStep .fMask)).ie = false ∧ (turn (atStep .fMask)).seq = .fShift 0 0 ∧
    (turn { atStep .fUnmask with ie := false }).ie = true ∧ (turn (atStep .fUnmask)).seq = .fShift 1 0 := by decide

theorem test_wait_start : (turn (atStep (.fWait 0 0))).seq = .fOff 0 0 ∧
    (turn { atStep (.fWait 0 0) with tcnt := 1 }).seq = .fWait 0 0 := by decide

theorem test_wait_slot : (turn { atStep (.fWait 2 1) with tcnt := 15 }).seq = .fWait 2 1 ∧
    (turn { atStep (.fWait 2 1) with tcnt := 16 }).seq = .fOff 2 1 ∧
    (turn { atStep (.fWait 2 1) with tcnt := 30 }).trace = [.slotLate 2 1 30] := by decide

theorem test_successors : afterOn 0 3 = .fUnmask ∧ afterOn 5 3 = .fShift 6 0 ∧ afterOn 6 0 = .t0Read ∧
    afterOn 6 3 = .rb 3 0 ∧ afterRebuild 0 = .fShift 6 1 ∧ afterRebuild 3 = .loop := by decide

theorem test_link_counter : (turn (turn { atStep .t0Read with usartTimeout := 1#8 })).usartTimeout = 0#8 ∧
    (turn (turn (atStep .t0Read))).usartTimeout = 0#8 := by decide

theorem test_gate : (turn (atStep .t1Gate)).seq = .aBegin ∧ (turn { atStep .t1Gate with on := false }).seq = .rb 1 0 ∧
    (turn { atStep .t1Gate with usartTimeout := 1#8 }).seq = .rb 1 0 := by decide

theorem test_idle : (turn { atStep .iOff with en := #v[false, false, false, true] }).en = #v[false, false, false, false] ∧
    (turn (atStep .iWait)).seq = .iWait ∧ (turn { atStep .iWait with tov := true }).tov = false ∧
    (turn { atStep .iWait with tov := true }).seq = .bSample .idle := by decide

/-- 00 R10, 41 R72: spot values of the thresholds. -/
theorem test_thresholds : threshold 0 1 = 4 ∧ threshold 3 1 = 10 ∧ threshold 0 6 = 252 ∧ threshold 3 6 = 444 ∧
    threshold 2 3 = 44 := by decide

/-! ## Shift-out, switch and light (95 2.6) -/

theorem test_switch : (turn { atStep (.fOff 3 2) with en := #v[false, true, false, false] }).en =
      #v[false, false, false, false] ∧
    (turn { atStep (.fLatch 3 2) with sr := 0x8001#16 }).out = 0x8001#16 ∧
    (turn (atStep (.fOn 3 2))).en = #v[false, false, true, false] ∧
    (turn { atStep (.fOff 0 0) with en := #v[false, false, false, true] }).en = #v[false, false, false, false] := by decide

theorem test_pins : dataBits 0x8001#16 = [true, false, false, false, false, false, false, false, false, false, false,
    false, false, false, false, true] ∧ shiftOut 0x1234#16 0x8001#16 = 0x8001#16 := by decide

theorem test_display : litVoxels { base with en := #v[false, false, true, false], out := 0x8001#16 } =
    [(2, 0), (2, 15)] := by decide

/-! ## Bit-planes (95 2.2) -/

/-- The sixteen intensities of 95 2.2. -/
def layerVector : Vector Byte 16 :=
  #v[0x00#8, 0x7F#8, 0x01#8, 0x40#8, 0x55#8, 0x2A#8, 0x80#8, 0xFF#8, 0x03#8, 0x10#8, 0x20#8, 0x08#8, 0x04#8, 0x02#8,
    0x7E#8, 0x81#8]

theorem test_bit_planes_identity : bitPlane (fun p => layerVector[p]) id 0 = 0x8196#16 ∧
    bitPlane (fun p => layerVector[p]) id 6 = 0x409A#16 := by decide

theorem test_bit_planes_rotated : bitPlane (fun p => layerVector[p]) (fun p => p + 1) 0 = 0x032D#16 ∧
    bitPlane (fun p => layerVector[p]) (fun p => 15 - p) 1 = 0x4586#16 := by decide

/-- 40 R66's example. -/
theorem test_rebuild_step : (turn { atStep (.rb 1 5) with mem := [(21, 0x05#8)] }).plane 1 0 = 0x0020#16 ∧
    (turn { atStep (.rb 1 5) with mem := [(21, 0x05#8)] }).plane 1 1 = 0x0000#16 ∧
    (turn { atStep (.rb 1 5) with mem := [(21, 0x05#8)] }).plane 1 2 = 0x0020#16 := by decide

/-! ## Animations (95 2.7) and the button (95 2.8) -/

theorem test_sweep : (turn { atStep (.aSwp 6) with animS := 4#8 }).read 6 = 0xFF#8 ∧
    (turn { atStep (.aSwp 5) with animS := 4#8 }).read 5 = 0x00#8 ∧
    (turn { atStep .aSwpEnd with animS := 15#8 }).animationState = 1#8 ∧
    (turn { atStep .aSwpEnd with animS := 13#8 }).animationState = 0#8 := by decide

theorem test_chase : (turn { atStep (.aChs 1 0) with mem := [(20, 0x33#8)], animS := 5#8 }).mem = [] ∧
    (turn { atStep (.aChs 3 1) with animS := 5#8 }).mem = [(53, 0xFF#8)] ∧
    (turn { atStep .aChsEnd with animS := 15#8 }).animationState = 0#8 := by decide

theorem test_sparkle_and_fill : (fgStep 0#2 (atStep (.aSpk 3))).mem = [(3, 0xFF#8)] ∧
    (fgStep 3#2 { atStep (.aSpk 3) with mem := [(3, 0x33#8)] }).mem = [] ∧
    (turn (atStep (.aFil 63))).seq = .rb 1 0 := by decide

theorem test_button_powered_on : buttonCheck true true true 17#8 = (255#8, .exit) ∧
    buttonCheck true false true 251#8 = (250#8, .clear) ∧ buttonCheck true false true 250#8 = (249#8, .exit) ∧
    buttonCheck true false true 1#8 = (0#8, .off) ∧ buttonCheck true false true 0#8 = (0#8, .off) ∧
    buttonCheck false false true 0#8 = (0#8, .exit) := by decide

theorem test_button_powered_off : buttonCheck true false false 201#8 = (200#8, .on) ∧
    buttonCheck true false false 200#8 = (199#8, .exit) ∧ buttonCheck true false false 0#8 = (0#8, .exit) := by decide

/-- 45 R127's example. -/
theorem test_button_advance : (turn (turn { atStep (.bARead .idle) with animationId := 3 })).animationId = 0 := by decide

/-! ## Configuration (95 1.5) -/

theorem test_bad_wiring_refused : powerUp { defaults with wiring := #v[0, 0, 2, 3, 4, 5, 6, 7, 8, 9, 10, 11, 12, 13, 14, 15] }
    Unspecified.chosen = .refused .invalidConfiguration := by
  have h : ¬({ defaults with wiring := #v[0, 0, 2, 3, 4, 5, 6, 7, 8, 9, 10, 11, 12, 13, 14, 15] } : Config).valid = true := by
    decide
  simp only [powerUp, dif_neg h]

theorem test_short_period_invalid : ({ defaults with counterPeriod := 444 } : Config).valid = false ∧
    ({ defaults with counterPeriod := 445 } : Config).valid = true ∧
    ({ defaults with maxBright := 0x7F#8 } : Config).valid = true ∧
    ({ defaults with maxBright := 0xFE#8 } : Config).valid = false ∧
    ({ defaults with layerLine := #v[0, 1, 1, 3] } : Config).valid = false := by decide

/-! ## Witnesses: the hypotheses of each statement met together, a clause at a time -/

/-- A concrete state meets the invariants where these five checks succeed. -/
theorem invariants_of_checks (s : State) (h : (decide (∀ L, s.enabled L = true → s.seq.litLayer = some L) &&
    decide (s.tcnt < s.cfg.val.counterPeriod) && decide (s.ie = false ↔ s.seq.masked = true) &&
    decide (s.animationState.toNat ≤ 15) && s.mem.wf) = true) : Invariants s := by
  simp only [Bool.and_eq_true, decide_eq_true_eq] at h
  exact ⟨h.1.1.1.1, h.1.1.1.2, h.1.1.2, h.1.2, h.2⟩

theorem base_invariants : Invariants base := invariants_of_checks _ (by decide)

/-- The state with one event on the agenda. -/
def planned (s : State) (e : Event) : State := { s with agenda := [e] }

/-- The state the next step answers, where it answers one. -/
def stepped (s : State) : State :=
  match step s with
  | .next t => t
  | .fault _ => s
  | .refused _ => s

theorem witness_OpcodeMapOfEveryByte : (0x7F#8).toNat < 0x80 ∧ (0x80#8 : Byte) = 0x80#8 ∧
    (0x86 ≤ (0x86#8).toNat ∧ (0x86#8).toNat ≤ 0x87) ∧ (0x86 ≤ (0x87#8).toNat ∧ (0x87#8).toNat ≤ 0x87) ∧
    (0x88 ≤ (0x88#8).toNat ∧ (0x88#8).toNat ≤ 0x8F) ∧ (0x88 ≤ (0x8F#8).toNat ∧ (0x8F#8).toNat ≤ 0x8F) ∧
    (0x90 ≤ (0x90#8).toNat ∧ (0x90#8).toNat ≤ 0x9F) ∧ (0x90 ≤ (0x9F#8).toNat ∧ (0x9F#8).toNat ≤ 0x9F) ∧
    (0xA0 ≤ (0xA0#8).toNat ∧ (0xA0#8).toNat ≤ 0xBF) ∧ (0xA0 ≤ (0xBF#8).toNat ∧ (0xBF#8).toNat ≤ 0xBF) ∧
    0xC0 ≤ (0xC0#8).toNat ∧ 0xC0 ≤ (0xFF#8).toNat := by decide

theorem witness_DecodeOfEncodeGivesTheCommand : (Instr.data 127#8).wf = true ∧ (Instr.setcur 63#6).wf = true ∧
    Instr.curhome.wf = true ∧ (Instr.ctrl6to7 7#6).wf = true ∧ (Instr.ctrl8to15 8#6).wf = true ∧
    (Instr.ctrl16to31 16#6).wf = true ∧ (Instr.ctrl32to63 32#6).wf = true := by decide

theorem witness_EncodeOfDecodeGivesTheBytes : decode [0x9F#8, 0x01#8] = .ok (.ctrl16to31 31#6, [0x01#8]) := rfl

/-- A byte pending, the handler's turn next. -/
def pending (x : Byte) : State := base.withPendingByte x

theorem witness_HandlerTurnRunsThePendingByte : (pending 0x85#8).agenda = .rxh :: [] ∧ (pending 0x85#8).ie = true ∧
    (pending 0x85#8).rxFull = true ∧ decode [(pending 0x85#8).rxBuf] = .ok (.ping, []) := ⟨rfl, rfl, rfl, rfl⟩

theorem witness_StepRunsTheFetchedWord : 0x85 < 256 ∧ decodeTableWord 8 0x85 = some .ping := by decide

theorem witness_StepTakesTheNextEvent : (planned base .tick).agenda = .tick :: [] ∧ base.agenda = [] := ⟨rfl, rfl⟩

/-- The start of the bit-0 phase. -/
def maskedState : State := { atStep (.fWait 0 0) with ie := false }

theorem witness_HandlerEnabledExactlyWhenUnmaskedAndPending : ¬(base.ie = true ∧ base.rxFull = true) ∧
    (pending 0x85#8).ie = true ∧ (pending 0x85#8).rxFull = true ∧ Invariants maskedState ∧
    maskedState.seq.masked = true ∧ (atStep .fMask).seq = .fMask ∧ maskedState.ie = false ∧
    step (planned { maskedState with rxFull := true } .tick) =
      .next (stepped (planned { maskedState with rxFull := true } .tick)) ∧
    maskedState.rxFull = false ∧ (planned maskedState (.host 0x84#8)).nextEvent.1 = .host 0x84#8 ∧
    ({ pending 0x85#8 with seq := .fUnmask, ie := false } : State).rxFull = true :=
  ⟨by decide, rfl, rfl, invariants_of_checks _ (by decide), rfl, rfl, rfl, rfl, rfl, rfl, rfl⟩

theorem witness_HandlerLeavesTheForegroundAlone : ∃ t, agentStep .rxh (pending 0x85#8) = .next t :=
  ⟨_, congrArg _ rfl⟩

theorem witness_DataWritesTheCursorVoxel : (Instr.data 127#8).wf = true ∧ (Instr.data 0#8).wf = true := by decide

theorem witness_ReservedOpcodesHaveNoEffect : (Instr.ctrl6to7 6#6).wf = true ∧ (Instr.ctrl8to15 15#6).wf = true ∧
    (Instr.ctrl16to31 31#6).wf = true ∧ (Instr.ctrl32to63 63#6).wf = true := by decide

theorem witness_OnlyDataAndPingWriteTheLinkCounter : (∃ t, exec .ping started = .next t) ∧
    ∃ t, exec .curhome started = .next t := ⟨⟨_, rfl⟩, ⟨_, rfl⟩⟩

theorem witness_SixtyFourDataBytesFillTheStore : execAll [.curhome] base = .next base ∧
    (List.replicate 64 (0x11#8 : Byte)).length = 64 ∧ (∀ v ∈ List.replicate 64 (0x11#8 : Byte), v.toNat < 128) ∧
    base.cursor = 0#6 := by
  refine ⟨rfl, by simp, fun v h => ?_, rfl⟩
  rw [List.eq_of_mem_replicate h]
  decide

theorem witness_PseudoInstructionsLeaveWhatTheyName : 63 < 64 ∧ 127 < 128 ∧ (List.replicate 64 127).length = 64 ∧
    ∀ v ∈ List.replicate 64 127, v < 128 := by
  refine ⟨by decide, by decide, by simp, fun v h => ?_⟩
  rw [List.eq_of_mem_replicate h]
  decide

theorem witness_NonBijectiveWiringIsRefused :
    (¬Function.Bijective ({ defaults with wiring := Vector.replicate 16 0 } : Config).wire) ∧
    Function.Bijective defaults.wire ∧ Function.Injective defaults.line ∧ 444 < defaults.counterPeriod ∧
    defaults.counterPeriod ≤ 2 ^ defaults.counterWidth ∧ defaults.maxBright &&& 0x7F#8 = 0x7F#8 := by
  refine ⟨fun h => ?_, Finite.injective_iff_bijective.mp ?_, ?_, by decide, by decide, by decide⟩
  · exact absurd (h.1 (by decide : _ = ({ defaults with wiring := Vector.replicate 16 0 } : Config).wire 1)) (by decide : (0 : Pos) ≠ 1)
  · unfold Function.Injective; decide
  · unfold Function.Injective; decide

theorem witness_StepKeepsTheInvariants : Invariants (planned base .tick) ∧
    step (planned base .tick) = .next (tickStep base) := ⟨invariants_of_checks _ (by decide), rfl⟩

theorem witness_ReachableStatesKeepR36 : Host.Core.run Sys2Proof.core 1
    { State.resetWith ⟨defaults, defaults_valid⟩ Unspecified.chosen with agenda := [.tick], freeIdx := 0 } =
      .next (tickStep base) := rfl

/-- The switch of slot (3,2), the chain holding a new pattern. -/
def latching : State := { planned (atStep (.fLatch 3 2)) (.fg 0#2) with sr := 0x8001#16 }

theorem witness_LayersNeverShowAnotherLayersPattern : Invariants latching ∧ step latching = .next (stepped latching) ∧
    latching.seq = .fLatch 3 2 ∧ (stepped latching).out ≠ latching.out ∧ Invariants (planned base .tick) ∧
    ∀ d, (planned base .tick).nextEvent.1 ≠ .fg d :=
  ⟨invariants_of_checks _ (by decide), rfl, rfl, by decide, invariants_of_checks _ (by decide),
    fun d h => Event.noConfusion h⟩

/-- The last micro-step of slot (3,2), the layer's pattern in the latch. -/
def lighting : State :=
  { planned (atStep (.fOn 3 2)) (.fg 0#2) with pl := Vector.replicate 4 (Vector.replicate 7 0x8001#16), out := 0x8001#16 }

/-- A lit layer, and a tick next. -/
def staysLit : State := { planned (atStep (.rb 2 0)) .tick with en := #v[false, false, true, false] }

theorem witness_layers_lit : Invariants lighting ∧ step lighting = .next (stepped lighting) ∧
    lighting.seq = .fOn 3 2 ∧ lighting.nextEvent.1 = .fg 0#2 ∧ PatternInFlight lighting ∧
    lighting.enabled 2 = false ∧ (stepped lighting).enabled 2 = true ∧ Invariants staysLit ∧
    staysLit.enabled 2 = true ∧ (stepped staysLit).enabled 2 = true := by
  refine ⟨invariants_of_checks _ (by decide), rfl, rfl, rfl, ⟨fun b l h => ?_, fun b l h => ?_⟩, by decide, by decide,
    invariants_of_checks _ (by decide), by decide, by decide⟩
  · rcases h with h | h | h <;> exact MicroStep.noConfusion h
  · injection h with hb hl
    subst hb hl
    decide

theorem witness_AtMostSixteenVoxelsLit :
    Invariants { atStep (.rb 2 0) with en := #v[false, false, true, false], out := 0xFFFF#16 } ∧
    (litVoxels { atStep (.rb 2 0) with en := #v[false, false, true, false], out := 0xFFFF#16 }).length = 16 ∧
    drivenLines { atStep (.rb 2 0) with en := #v[false, false, true, false] } = [2] ∧ drivenLines base = [] :=
  ⟨invariants_of_checks _ (by decide), by decide, by decide, by decide⟩

/-- A foreground turn planned at a micro-step of a state. -/
def fgAt (m : MicroStep) (s : State) : State := { s with seq := m, agenda := [.fg 0#2] }

theorem witness_OnlyNamedStepsWriteTheDatapath :
    (stepped (fgAt (.rb 1 5) { base with mem := [(21, 0x05#8)] })).pl ≠ base.pl ∧
    (stepped (fgAt (.fShift 3 2) { base with pl := Vector.replicate 4 (Vector.replicate 7 0x8001#16) })).sr ≠ base.sr ∧
    (stepped latching).out ≠ latching.out ∧ (stepped (fgAt (.fOn 3 2) base)).en ≠ base.en ∧
    step (fgAt (.fOn 3 2) base) = .next (stepped (fgAt (.fOn 3 2) base)) := by
  refine ⟨by decide, by decide, by decide, by decide, rfl⟩

theorem witness_OnlyNamedStepsWriteTheControlVariables :
    (stepped (fgAt .loop base)).seq ≠ .loop ∧ (stepped (fgAt .fMask base)).ie ≠ base.ie ∧
    (stepped (planned base .tick)).tcnt ≠ base.tcnt ∧
    (stepped (planned { base with tcnt := 507 } .tick)).tov ≠ base.tov ∧
    (stepped (fgAt .iWait { base with tov := true })).tov ≠ true ∧
    (stepped (pending 0x81#8)).on ≠ base.on ∧ (stepped (fgAt (.bOff .frame) base)).on ≠ base.on ∧
    (stepped (pending 0x83#8)).animationId ≠ base.animationId ∧
    (stepped (fgAt (.bAWrite .frame) base)).animationId ≠ base.animationId ∧
    (stepped (fgAt .aSwpEnd base)).animationState ≠ base.animationState ∧
    (stepped (pending 0x85#8)).usartTimeout ≠ base.usartTimeout ∧
    (stepped (fgAt .t0Write { base with tmp := 5#8 })).usartTimeout ≠ base.usartTimeout ∧
    (stepped (fgAt (.bSample .frame) { base with btn := false })).buttonTimeout ≠ base.buttonTimeout ∧
    (stepped (pending 0xFF#8)).cursor ≠ base.cursor := by
  refine ⟨?_, ?_, ?_, ?_, ?_, ?_, ?_, ?_, ?_, ?_, ?_, ?_, ?_, ?_⟩ <;> decide

theorem witness_store_receiver_and_scratch_writers :
    (stepped (pending 0x7F#8)).read 0 ≠ base.read 0 ∧ (stepped (fgAt (.aFil 63) base)).read 63 ≠ base.read 63 ∧
    (stepped (fgAt (.aChs 3 1) base)).read 48 ≠ base.read 48 ∧
    (stepped (fgAt (.bClr .idle 10) { base with mem := [(10, 0x33#8)] })).read 10 ≠ 0x33#8 ∧
    (stepped (planned base (.host 0x84#8))).rxBuf ≠ base.rxBuf ∧
    (stepped (planned base (.host 0x84#8))).rxFull ≠ base.rxFull ∧ (stepped (pending 0x85#8)).rxFull ≠ true ∧
    (stepped (fgAt .t0Read { base with usartTimeout := 9#8 })).tmp ≠ base.tmp ∧
    (stepped (fgAt (.bARead .frame) { base with animationId := 3 })).tmp ≠ base.tmp ∧
    (stepped (fgAt .aBegin { base with animationState := 7#8 })).animS ≠ base.animS ∧
    (stepped (planned base (.btn false))).btn ≠ base.btn := by
  refine ⟨?_, ?_, ?_, ?_, ?_, ?_, ?_, ?_, ?_, ?_, ?_⟩ <;> decide

theorem witness_BitSevenComesOnlyFromAnimations : step (fgAt (.aFil 7) base) = .next (stepped (fgAt (.aFil 7) base)) ∧
    ((stepped (fgAt (.aFil 7) base)).read 7).getLsbD 7 = true ∧ (base.read 7).getLsbD 7 = false :=
  ⟨rfl, by decide, by decide⟩

theorem witness_StoreLayoutAndMasking : 127 % 64 ≠ 64 % 64 := by decide

theorem witness_ThresholdsIncreaseInSlotOrder : (6 : Plane).val = (5 : Plane).val + 1 ∧
    (3 : Layer).val = (2 : Layer).val + 1 ∧ (1 : Plane).val = (0 : Plane).val + 1 := by decide

theorem witness_SlotWaitHoldsUntilItsThreshold : (atStep (.fWait 0 0)).seq = .fWait 0 0 ∧ base.tcnt = 0 ∧
    ({ atStep (.fWait 0 0) with tcnt := 1 } : State).tcnt ≠ 0 ∧
    ({ atStep (.fWait 2 1) with tcnt := 16 } : State).seq = .fWait 2 1 ∧ threshold 1 2 ≤ 16 ∧ threshold 1 2 < 17 ∧
    15 < threshold 1 2 ∧ ¬((2 : Plane) = 0 ∧ (1 : Layer) = 0) := by
  refine ⟨rfl, rfl, by decide, rfl, by decide, by decide, by decide, by decide⟩

/-- Every position is that of some state, and the foreground's turn there answers a next state: the hypotheses
`s.seq = …` of the statements on micro-steps, and `agentStep (.fg d) s = .next t` of SlotsAreTakenInOrder. -/
theorem witness_foreground (m : MicroStep) (d : BitVec 2) : (atStep m).seq = m ∧
    ∃ t, agentStep (.fg d) (atStep m) = .next t := ⟨rfl, _, rfl⟩

theorem witness_PowerDispatchAndInterruptMask : (atStep .loop).seq = .loop ∧ (atStep .fMask).seq = .fMask ∧
    (atStep .fUnmask).seq = .fUnmask := ⟨rfl, rfl, rfl⟩

theorem witness_SlotsAreTakenInOrder : (∃ t, agentStep (.fg 0#2) (atStep (.fOn 5 2)) = .next t) ∧
    (5 : Plane).val ≤ 5 ∧ (3 : Layer).val = (2 : Layer).val + 1 ∧ 1 ≤ (1 : Plane).val ∧
    (6 : Plane).val = (5 : Plane).val + 1 ∧ ∀ m ∈ [MicroStep.fOn 0 3, .fOn 1 3, .fOn 5 3, .fOn 6 0, .fOn 6 1, .fOn 6 2,
      .fOn 6 3, .t0Write, .aSpk 63, .aSwpEnd, .bAWrite .frame, .rb 2 15, .rb 3 15], (atStep m).seq = m :=
  ⟨⟨_, rfl⟩, by decide, by decide, by decide, by decide, fun _ _ => rfl⟩

theorem witness_ShiftAndLayerSwitchSteps : (∀ m ∈ [MicroStep.fShift 0 0, .fOff 6 3, .fLatch 0 3, .fOn 6 0],
    (atStep m).seq = m) ∧ Invariants { atStep (.fOff 6 3) with en := #v[false, false, true, false] } ∧
    Invariants latching := ⟨fun _ _ => rfl, invariants_of_checks _ (by decide), invariants_of_checks _ (by decide)⟩

theorem witness_StepKeepsThePatternInFlight : PatternInFlight base ∧ ∃ t, step (planned base .tick) = .next t :=
  ⟨⟨fun b l h => by rcases h with h | h | h <;> exact MicroStep.noConfusion h, fun b l h => MicroStep.noConfusion h⟩,
    _, rfl⟩

theorem witness_IdleModeDarkensAndWaitsForRollover : (atStep .iOff).seq = .iOff ∧ (atStep .iWait).seq = .iWait ∧
    ({ atStep .iWait with tov := true } : State).tov = true ∧ (atStep .iWait).tov = false := ⟨rfl, rfl, rfl, rfl⟩

theorem witness_IdleModeStaysIdle :
    (∃ t, agentStep (.fg 0#2) { atStep (.bSample .idle) with on := false, btn := false } = .next t) ∧
    ({ atStep (.bSample .idle) with on := false, btn := false } : State).seq ∈
      [MicroStep.loop, .iOff, .iWait, .bSample .idle, .bOff .idle, .bOn .idle] := ⟨⟨_, rfl⟩, by decide⟩

theorem witness_BitPlanesIgnoreBitSeven : ∀ p : Pos, layerVector[p] &&& 0x7F#8 = (layerVector[p] ^^^ 0x80#8) &&& 0x7F#8 := by
  decide

theorem witness_BitPlanesTakeEachPositionOnce : Function.Bijective (fun p : Pos => 15 - p) := by
  refine Finite.injective_iff_bijective.mp ?_
  unfold Function.Injective
  decide

theorem witness_RebuildStepWritesOnePosition : (atStep (.rb 3 14)).seq = .rb 3 14 ∧
    (15 : Pos).val = (14 : Pos).val + 1 ∧ (atStep (.rb 0 15)).seq = .rb 0 15 := ⟨rfl, rfl, rfl⟩

/-- Sixteen foreground turns with a handler turn and a tick between the eighth and the ninth. -/
def rebuildTurns : List Event := List.replicate 8 (.fg 0#2) ++ .rxh :: .tick :: List.replicate 8 (.fg 0#2)

/-- The rebuild of layer 2 about to start, a SETCUR pending. -/
def rebuildStart : State := { pending 0xFF#8 with seq := .rb 2 0, agenda := rebuildTurns ++ [] }

theorem witness_LayerRebuildIsBitPlanes : rebuildStart.seq = .rb 2 0 ∧ rebuildStart.agenda = rebuildTurns ++ [] ∧
    (rebuildTurns.filter fun e => match e with | .fg _ => true | _ => false).length = 16 ∧
    ∀ (k : Nat) (u v : State), rebuildTurns[k]? = some .rxh → Host.Core.run Sys2Proof.core k rebuildStart = .next u →
      Host.Core.run Sys2Proof.core (k + 1) rebuildStart = .next v →
      ∀ p : Pos, v.read (16 * (2 : Layer).val + p.val) = u.read (16 * (2 : Layer).val + p.val) := by
  refine ⟨rfl, rfl, by decide, fun k u v hk hu hv => ?_⟩
  have h8 : k = 8 := by
    by_contra hne
    have hlt : k < 18 := by
      by_contra hge
      rw [List.getElem?_eq_none (by simpa [rebuildTurns] using hge)] at hk
      cases hk
    revert hk
    interval_cases k <;> first | exact absurd rfl hne | exact fun h => by cases h
  subst h8
  injection hu with hu
  injection hv with hv
  subst hu hv
  exact fun _ => rfl

theorem witness_LinkCounterDecrementIsSplit : (atStep .t0Read).seq = .t0Read ∧ (atStep .t0Write).seq = .t0Write :=
  ⟨rfl, rfl⟩

/-- 95 2.9 H3: a PING pending at T0_READ, the handler's turn between the halves. -/
def pingRace : State :=
  { pending 0x85#8 with seq := .t0Read, usartTimeout := 1#8, agenda := [.fg 0#2, .rxh, .fg 0#2] }

theorem witness_PingBetweenReadAndWriteIsLost : pingRace.seq = .t0Read ∧ pingRace.ie = true ∧
    pingRace.rxFull = true ∧ pingRace.rxBuf = 0x85#8 ∧ pingRace.agenda = .fg 0#2 :: .rxh :: .fg 0#2 :: [] :=
  ⟨rfl, rfl, rfl, rfl, rfl⟩

theorem witness_AnimationGateAndDispatch : (atStep .t1Gate).seq = .t1Gate ∧ (atStep .aBegin).seq = .aBegin ∧
    (∀ id : Fin 4, ({ atStep .aBegin with animationId := id } : State).animationId = id) := ⟨rfl, rfl, fun _ => rfl⟩

theorem witness_SparkleAndFillWriteOneVoxelAStep : (atStep (.aSpk 62)).seq = .aSpk 62 ∧
    (63 : Fin 64).val = (62 : Fin 64).val + 1 ∧ (atStep (.aFil 63)).seq = .aFil 63 := ⟨rfl, rfl, rfl⟩

theorem witness_SweepWritesColumnsThenRows : (atStep (.aSwp 62)).seq = .aSwp 62 ∧ (atStep (.aSwp 63)).seq = .aSwp 63 ∧
    (63 : Fin 64).val = (62 : Fin 64).val + 1 ∧ (atStep .aSwpEnd).seq = .aSwpEnd := ⟨rfl, rfl, rfl, rfl⟩

theorem witness_SweepHasPeriodFourteen : (13#8).toNat ≤ 13 ∧ 0 < 13 ∧ 13 < 14 := by decide

theorem witness_ChaseClearsThenSets : (atStep (.aChs 3 0)).seq = .aChs 3 0 ∧ (atStep (.aChs 3 1)).seq = .aChs 3 1 ∧
    (atStep (.aChs 2 1)).seq = .aChs 2 1 ∧ (3 : Layer).val = (2 : Layer).val + 1 ∧ (atStep .aChsEnd).seq = .aChsEnd :=
  ⟨rfl, rfl, rfl, rfl, rfl⟩

/-- A Chase tick about to start, on a store that holds `m`. -/
def chaseStart (m : Memory) : State :=
  { atStep .aBegin with animationId := 2, animationState := 5#8, mem := m,
                        agenda := (List.replicate 10 0#2).map .fg ++ [] }

theorem witness_ChaseTickKeepsOneVoxelLit : (chaseStart []).seq = .aBegin ∧ (chaseStart []).animationId = 2 ∧
    (chaseStart []).animationState.toNat ≤ 15 ∧ (List.replicate 10 0#2).length = 10 ∧
    (chaseStart []).agenda = (List.replicate 10 0#2).map .fg ++ [] ∧
    (∀ p : Pos, (chaseStart []).read (voxelAddr 1 p) = 0x00#8) ∧
    (∀ p : Pos, (chaseStart [(20, 0xFF#8)]).read (voxelAddr 1 p) ≠ 0x00#8 ↔
      p.val = ((chaseStart [(20, 0xFF#8)]).animationState.toNat + 15) % 16) :=
  ⟨rfl, rfl, by decide, rfl, rfl, by decide, by decide⟩

theorem witness_ButtonCheckDecides : (atStep (.bSample .idle)).seq = .bSample .idle ∧
    (atStep (.bSample .frame)).btn = true ∧ ({ atStep (.bSample .frame) with btn := false } : State).btn = false :=
  ⟨rfl, rfl, rfl⟩

theorem witness_ButtonActionsWriteWhatTheyName : ∀ m ∈ [MicroStep.bOff .frame, .bOn .idle, .bClr .frame 62,
    .bClr .idle 63, .bARead .frame, .bAWrite .idle], (atStep m).seq = m := fun _ _ => rfl

theorem witness_HeldButtonActsOncePerThreshold : 254 < 255 := by decide

theorem witness_InputsWriteTheirRegistersOnly : base.rxFull = false ∧ (pending 0x85#8).rxFull = true := ⟨rfl, rfl⟩

theorem witness_SecondUnconsumedByteIsLost :
    ({ base with agenda := [.host 0x05#8, .host 0x84#8, .rxh] } : State).rxFull = false ∧
    ({ base with agenda := [.host 0x05#8, .host 0x84#8, .rxh] } : State).ie = true ∧
    ({ base with agenda := [.host 0x05#8, .host 0x84#8, .rxh] } : State).agenda = .host 0x05#8 :: .host 0x84#8 :: .rxh :: [] :=
  ⟨rfl, rfl, rfl⟩

/-- A frame's start with the words of every layer holding 0xD5 at position 5. -/
def patterned : State := { base with pl := Vector.replicate 4 (setPlanes (Vector.replicate 7 0#16) 5 0xD5#8) }

theorem witness_IdealFrameIsExactModulation : Invariants patterned ∧ FrameStart patterned ∧
    patterned.cfg.val.counterPeriod = 508 ∧
    (∀ b : Plane, (patterned.plane 3 b).getLsbD (patterned.cfg.val.wire 5).val = (0xD5#8 : Byte).getLsbD b.val) ∧
    (0xD5#8 : Byte).toNat % 128 = 0x55 :=
  ⟨invariants_of_checks _ (by decide), ⟨rfl, rfl, rfl, rfl⟩, rfl, by decide, by decide⟩

theorem witness_IdealRunKeepsTheTimingContract : Invariants base ∧ FrameStart base :=
  ⟨base_invariants, ⟨rfl, rfl, rfl, rfl⟩⟩

/-! ## TIMING_CONTRACT refuses what R150 rules out -/

/-- R150 (b): a wrap while FG stands at LOOP between two frames. -/
def wrapsAtLoop : List State :=
  [{ atStep (.rb 3 15) with tcnt := 507 }, { atStep .loop with tcnt := 507 }, { atStep .loop with tcnt := 0 },
    { atStep .fMask with tcnt := 0 }]

theorem test_contract_refuses_wrap_at_loop : ¬TimingContract wrapsAtLoop := fun h =>
  absurd (h.onePeriod wrapsAtLoop List.infix_rfl ⟨⟨_, rfl, rfl⟩, ⟨_, rfl, rfl⟩, by decide⟩) (by decide)

/-- R150 (c): two ticks while FG stands at the shift of slot (0,0). -/
def slowShift : List State :=
  [{ atStep (.fShift 0 0) with tcnt := 500 }, { atStep (.fShift 0 0) with tcnt := 501 },
    { atStep (.fShift 0 0) with tcnt := 502 }]

theorem test_contract_refuses_slow_shift : ¬TimingContract slowShift := fun h =>
  absurd (h.bitZeroInOneTick slowShift 0 List.infix_rfl (by decide)) (by decide)

/-- R150 (a): a wait reached at its threshold. -/
theorem test_contract_refuses_late_wait :
    ¬TimingContract [{ atStep (.fShift 2 1) with tcnt := 16 }, { atStep (.fWait 2 1) with tcnt := 16 }] := fun h =>
  absurd (h.reachedEarly _ _ List.infix_rfl 2 1 (by decide) rfl (by decide)) (by decide)

/-- R150 (b): the next frame's start reached before T(3,6). -/
theorem test_contract_refuses_early_start :
    ¬TimingContract [{ atStep (.rb 3 15) with tcnt := 443 }, { atStep (.fWait 0 0) with tcnt := 443 }] := fun h =>
  absurd (h.nextStartReached _ List.infix_rfl ⟨⟨_, rfl, rfl⟩, ⟨_, rfl, rfl⟩, by decide⟩ _ rfl rfl) (by decide)

end Sys2Proof.Tests
end

/-! ## The invariants of R36 and R96 along every run

First one rule for each operation on the state, saying that it keeps `Invariants`; then one turn of each agent; then a
run. -/

namespace Sys2Proof.Machine

open Sys2Proof

/-! ### Rules for the operations on the state -/

/-- `m'` may follow `m` with the enables and `ie` as they are: what may be lit at `m` may be lit at `m'`, and the
interrupts are masked at both or at neither. -/
structure SamePhase (m m' : MicroStep) : Prop where
  lit : ∀ L, m.litLayer = some L → m'.litLayer = some L
  masked : m'.masked = m.masked

section

variable {s : State}

/-- The invariants read `cfg`, `mem`, `en`, `seq`, `ie`, `tcnt` and `animationState` alone. -/
theorem Invariants.of_agree {t : State} (hs : Invariants s) (hcfg : t.cfg = s.cfg) (hen : t.en = s.en)
    (hseq : t.seq = s.seq) (hie : t.ie = s.ie) (htcnt : t.tcnt = s.tcnt)
    (hanim : t.animationState = s.animationState) (hmem : t.mem.wf = true) : Invariants t where
  enabledLayer := by simpa only [State.enabled, hen, hseq] using hs.enabledLayer
  counterInRange := by simpa only [hcfg, htcnt] using hs.counterInRange
  maskedExactly := by simpa only [hie, hseq] using hs.maskedExactly
  animationStateInRange := by simpa only [hanim] using hs.animationStateInRange
  memoryCanonical := hmem

/-- Every field the invariants do not read may be written. -/
theorem Invariants.unread {pl sr out tov on animationId usartTimeout buttonTimeout cursor rxBuf rxFull tmp animS btn
    trace zeroMissed agenda freeIdx} (hs : Invariants s) :
    Invariants { s with
      pl := pl, sr := sr, out := out, tov := tov, on := on, animationId := animationId, usartTimeout := usartTimeout,
      buttonTimeout := buttonTimeout, cursor := cursor, rxBuf := rxBuf, rxFull := rxFull, tmp := tmp, animS := animS,
      btn := btn, trace := trace, zeroMissed := zeroMissed, agenda := agenda, freeIdx := freeIdx } :=
  hs.of_agree rfl rfl rfl rfl rfl rfl hs.memoryCanonical

theorem Invariants.write (hs : Invariants s) (a : Nat) (v : Byte) : Invariants (s.write a v) :=
  hs.of_agree rfl rfl rfl rfl rfl rfl (write_wf a v hs.memoryCanonical)

theorem Invariants.noteLate (hs : Invariants s) (b : Plane) (l : Layer) : Invariants (noteLate b l s) :=
  hs.of_agree (by simp) (by simp) (by simp) (by simp) (by simp) (by simp) (by simpa using hs.memoryCanonical)

theorem Invariants.setAnimationState (hs : Invariants s) {x : Byte} (hx : x.toNat ≤ 15) :
    Invariants { s with animationState := x } where
  enabledLayer := hs.enabledLayer
  counterInRange := hs.counterInRange
  maskedExactly := hs.maskedExactly
  animationStateInRange := hx
  memoryCanonical := hs.memoryCanonical

/-- Writing enables and moving on: what is lit afterwards must be what may be lit at the new position. -/
theorem Invariants.setEn_goto (hs : Invariants s) {en : Vector Bool 4} {m : MicroStep}
    (hlit : ∀ L : Layer, en[L] = true → m.litLayer = some L) (hmask : m.masked = s.seq.masked) :
    Invariants (({ s with en := en } : State).goto m) where
  enabledLayer := hlit
  counterInRange := hs.counterInRange
  maskedExactly := by simpa only [goto_seq, goto_ie, hmask] using hs.maskedExactly
  animationStateInRange := hs.animationStateInRange
  memoryCanonical := hs.memoryCanonical

theorem Invariants.goto (hs : Invariants s) {m m' : MicroStep} (hseq : s.seq = m) (hm : SamePhase m m') :
    Invariants (s.goto m') :=
  hs.setEn_goto (fun L hL => hm.lit L (hseq ▸ hs.enabledLayer L hL)) (hseq ▸ hm.masked)

/-- Writing `ie` and moving on, from a masked position to an unmasked one or the other way (R79, R80). -/
theorem Invariants.setIe_goto (hs : Invariants s) {m : MicroStep}
    (hlit : ∀ L, s.seq.litLayer = some L → m.litLayer = some L) :
    Invariants (({ s with ie := !m.masked } : State).goto m) where
  enabledLayer L hL := hlit L (hs.enabledLayer L hL)
  counterInRange := hs.counterInRange
  maskedExactly := by simp
  animationStateInRange := hs.animationStateInRange
  memoryCanonical := hs.memoryCanonical

/-- Nothing is lit at a position that no layer is lit at. -/
theorem Invariants.enabled_eq_false (hs : Invariants s) (h : s.seq.litLayer = none) (L : Layer) :
    s.enabled L = false := by
  by_contra hL
  have := hs.enabledLayer L (by simpa using hL)
  simp [h] at this

end

/-! ### Where each micro-step goes -/

/-- Two positions of the same lit layer, both masked or neither. -/
theorem SamePhase.of_eq {m m' : MicroStep} (hlit : m'.litLayer = m.litLayer) (hmask : m'.masked = m.masked) :
    SamePhase m m' := ⟨fun _ h => hlit.trans h, hmask⟩

theorem samePhase_buttonExit (k : Ctx) {m : MicroStep} (hlit : m.litLayer = (MicroStep.bSample k).litLayer)
    (hmask : m.masked = false) : SamePhase m (buttonExit k) := by
  cases k with
  | frame => exact .of_eq hlit.symm hmask.symm
  | idle => exact ⟨fun _ h => (nomatch hlit.symm.trans h), hmask.symm⟩

theorem samePhase_firstOfAction (k : Ctx) (a : ButtonAction) : SamePhase (.bSample k) (firstOfAction k a) := by
  cases a with
  | exit => exact samePhase_buttonExit k rfl rfl
  | _ => exact .of_eq (by cases k <;> rfl) rfl

theorem samePhase_firstOfAnimation (id : Fin 4) : SamePhase .aBegin (firstOfAnimation id) := by
  unfold firstOfAnimation
  repeat' split
  all_goals exact .of_eq rfl rfl

theorem litLayer_afterRebuild : ∀ l, (afterRebuild l).litLayer = some l := by decide

theorem masked_afterRebuild : ∀ l, (afterRebuild l).masked = false := by decide

/-- `F_ON(b,l)` leads to a position at which layer `l` is lit. -/
theorem litLayer_afterOn : ∀ b l, (afterOn b l).litLayer = some l := by decide

/-- The bit-0 slots lead to one another and to `F_UNMASK`, and no other slot leads to a masked position. -/
theorem masked_afterOn : ∀ b l, (afterOn b l).masked = (b == 0) := by decide

/-! ### One turn of each agent -/

section

variable {s : State}

/-- `F_OFF` darkens the one layer that may be lit (R93). -/
theorem Invariants.stepFOff (hs : Invariants s) {b : Plane} {l : Layer} (hseq : s.seq = .fOff b l) :
    Invariants (stepFOff b l s) := by
  refine hs.setEn_goto (fun L hL => ?_) (by rw [hseq]; rfl)
  have hoff : (s.setEnable (outgoing l) false).enabled L = true := hL
  rw [enabled_setEnable] at hoff
  split at hoff
  · cases hoff
  · have hlit := hs.enabledLayer L hoff
    rw [hseq] at hlit
    exact absurd (Option.some.inj hlit).symm ‹_›

/-- `F_ON` lights its own layer in the dark (R95). -/
theorem Invariants.stepFOn (hs : Invariants s) {b : Plane} {l : Layer} (hseq : s.seq = .fOn b l) :
    Invariants (stepFOn b l s) := by
  refine hs.setEn_goto (fun L hL => ?_) (by rw [hseq]; exact masked_afterOn b l)
  have hon : (s.setEnable l true).enabled L = true := hL
  rw [enabled_setEnable, hs.enabled_eq_false (by rw [hseq]; rfl)] at hon
  have hLl : L = l := by simpa using hon
  rw [hLl]
  exact litLayer_afterOn b l

/-- `I_OFF` darkens every layer (R85). -/
theorem Invariants.stepIOff (hs : Invariants s) (hseq : s.seq = .iOff) : Invariants (stepIOff s) := by
  refine hs.setEn_goto (fun L hL => ?_) (by rw [hseq]; rfl)
  have hoff : ((((s.setEnable 0 false).setEnable 1 false).setEnable 2 false).setEnable 3 false).enabled L = true := hL
  simp only [enabled_setEnable] at hoff
  fin_cases L <;> simp at hoff

theorem Invariants.stepT0Write (hs : Invariants s) (hseq : s.seq = .t0Write) : Invariants (stepT0Write s) := by
  unfold Machine.stepT0Write
  split
  · exact hs.goto hseq (.of_eq rfl rfl)
  · exact hs.unread.goto hseq (.of_eq rfl rfl)

theorem Invariants.stepAChs (hs : Invariants s) {L : Layer} {k : Fin 2} (hseq : s.seq = .aChs L k) :
    Invariants (stepAChs L k s) := by
  unfold Machine.stepAChs
  split
  · exact (hs.write _ _).goto hseq (.of_eq rfl rfl)
  · exact (hs.write _ _).goto hseq (by split <;> exact .of_eq rfl rfl)

theorem Invariants.stepFWait (hs : Invariants s) {b : Plane} {l : Layer} (hseq : s.seq = .fWait b l) :
    Invariants (stepFWait b l s) := by
  unfold Machine.stepFWait
  split
  · exact (hs.noteLate b l).goto ((noteLate_seq b l s).trans hseq) (.of_eq rfl rfl)
  · exact hs

theorem Invariants.stepIWait (hs : Invariants s) (hseq : s.seq = .iWait) : Invariants (stepIWait s) := by
  unfold Machine.stepIWait
  split
  · exact hs.unread.goto hseq (.of_eq rfl rfl)
  · exact hs

theorem Invariants.stepLoop (hs : Invariants s) (hseq : s.seq = .loop) : Invariants (stepLoop s) :=
  hs.goto hseq (by split <;> exact .of_eq rfl rfl)

theorem Invariants.stepT1Gate (hs : Invariants s) (hseq : s.seq = .t1Gate) : Invariants (stepT1Gate s) :=
  hs.goto hseq (by split <;> exact .of_eq rfl rfl)

/-- The rebuild goes on in its layer or leaves for a position at which that layer is lit (R76). -/
theorem Invariants.stepRb (hs : Invariants s) {l : Layer} {p : Pos} (hseq : s.seq = .rb l p) :
    Invariants (stepRb l p s) := by
  refine hs.unread.goto hseq ?_
  split
  · exact .of_eq rfl rfl
  · exact .of_eq (litLayer_afterRebuild l) (masked_afterRebuild l)

/-- The foreground's turn, whatever micro-step it is at. -/
theorem Invariants.fgStep (hs : Invariants s) (draw : BitVec 2) : Invariants (fgStep draw s) := by
  unfold Machine.fgStep
  cases hseq : s.seq with
  | loop => exact hs.stepLoop hseq
  | fMask => exact hs.setIe_goto (m := .fShift 0 0) (by rw [hseq]; exact fun _ h => h)
  | fShift b l => exact hs.unread.goto hseq (.of_eq rfl rfl)
  | fWait b l => exact hs.stepFWait hseq
  | fOff b l => exact hs.stepFOff hseq
  | fLatch b l => exact hs.unread.goto hseq (.of_eq rfl rfl)
  | fOn b l => exact hs.stepFOn hseq
  | fUnmask => exact hs.setIe_goto (m := .fShift 1 0) (by rw [hseq]; exact fun _ h => h)
  | t0Read => exact hs.unread.goto hseq (.of_eq rfl rfl)
  | t0Write => exact hs.stepT0Write hseq
  | t1Gate => exact hs.stepT1Gate hseq
  | aBegin => exact hs.unread.goto hseq (samePhase_firstOfAnimation _)
  | aSpk i => exact (hs.write _ _).goto hseq (by split <;> exact .of_eq rfl rfl)
  | aSwp i => exact (hs.write _ _).goto hseq (by split <;> exact .of_eq rfl rfl)
  | aSwpEnd => exact (hs.setAnimationState (by simp; omega)).goto hseq (.of_eq rfl rfl)
  | aChs L k => exact hs.stepAChs hseq
  | aChsEnd => exact (hs.setAnimationState (by simp; omega)).goto hseq (.of_eq rfl rfl)
  | aFil i => exact (hs.write _ _).goto hseq (by split <;> exact .of_eq rfl rfl)
  | bSample k => exact hs.unread.goto hseq (samePhase_firstOfAction k _)
  | bOff k => exact hs.unread.goto hseq (samePhase_buttonExit k (by cases k <;> rfl) rfl)
  | bOn k => exact hs.unread.goto hseq (samePhase_buttonExit k (by cases k <;> rfl) rfl)
  | bClr k i => exact (hs.write _ _).goto hseq (by split <;> exact .of_eq (by cases k <;> rfl) rfl)
  | bARead k => exact hs.unread.goto hseq (.of_eq (by cases k <;> rfl) rfl)
  | bAWrite k => exact hs.unread.goto hseq (samePhase_buttonExit k (by cases k <;> rfl) rfl)
  | rb l p => exact hs.stepRb hseq
  | iOff => exact hs.stepIOff hseq
  | iWait => exact hs.stepIWait hseq

theorem Invariants.commandResult (hs : Invariants s) (i : Instr) : Invariants (commandResult i s) :=
  have frame := commandResult_frame i s
  hs.of_agree frame.cfg frame.en frame.seq frame.ie frame.tcnt frame.animationState
    (commandResult_wf i hs.memoryCanonical)

/-- R9 admits no counter period but one above `T(3,6)`. -/
theorem lt_counterPeriod (c : ValidConfig) : 444 < c.val.counterPeriod := by
  have hvalid := c.property
  simp only [Config.valid, Bool.and_eq_true, decide_eq_true_eq] at hvalid
  obtain ⟨⟨⟨⟨-, -⟩, hperiod⟩, -⟩, -⟩ := hvalid
  exact hperiod

/-- A tick wraps at the counter's period (R70). -/
theorem Invariants.tickStep (hs : Invariants s) : Invariants (tickStep s) where
  enabledLayer := hs.enabledLayer
  counterInRange := Nat.mod_lt _ (Nat.zero_lt_of_lt (lt_counterPeriod s.cfg))
  maskedExactly := hs.maskedExactly
  animationStateInRange := hs.animationStateInRange
  memoryCanonical := hs.memoryCanonical

theorem Invariants.hostStep (hs : Invariants s) (v : Byte) : Invariants (hostStep v s) := by
  unfold Machine.hostStep
  split <;> exact hs.unread

/-- One turn of any agent. -/
theorem Invariants.turnResult (hs : Invariants s) (e : Event) : Invariants (turnResult e s) := by
  cases e with
  | fg draw => exact hs.fgStep draw
  | rxh =>
    simp only [Machine.turnResult]
    split
    · exact hs.unread.commandResult _
    · exact hs
  | tick => exact hs.tickStep
  | host v => exact hs.hostStep v
  | btn level => exact hs.unread

/-- Every step of every agent keeps the invariants. -/
theorem Invariants.step {t : State} (hs : Invariants s) (h : step s = .next t) : Invariants t := by
  obtain ⟨agenda, freeIdx, hrest⟩ := nextEvent_rest s
  rw [step_eq, hrest] at h
  cases h
  exact hs.unread.turnResult _

end

/-- The invariants hold after reset. -/
theorem invariants_resetWith (c : ValidConfig) (u : Unspecified) : Invariants (State.resetWith c u) where
  enabledLayer L hL := by simp [State.resetWith, State.enabled] at hL
  counterInRange := Nat.zero_lt_of_lt (lt_counterPeriod c)
  maskedExactly := by simp [State.resetWith, MicroStep.masked]
  animationStateInRange := Nat.zero_le _
  memoryCanonical := reset_memory_wf c u

/-! ### No step writes the configuration (log 5) -/

theorem stepFWait_cfg (b : Plane) (l : Layer) (s : State) : (stepFWait b l s).cfg = s.cfg := by
  unfold stepFWait
  split
  · exact noteLate_cfg b l s
  · rfl

theorem stepT0Write_cfg (s : State) : (stepT0Write s).cfg = s.cfg := by
  unfold stepT0Write
  split <;> rfl

theorem stepAChs_cfg (L : Layer) (k : Fin 2) (s : State) : (stepAChs L k s).cfg = s.cfg := by
  unfold stepAChs
  split <;> rfl

theorem stepIWait_cfg (s : State) : (stepIWait s).cfg = s.cfg := by
  unfold stepIWait
  split <;> rfl

theorem fgStep_cfg (draw : BitVec 2) (s : State) : (fgStep draw s).cfg = s.cfg := by
  unfold fgStep
  cases s.seq with
  | fWait b l => exact stepFWait_cfg b l s
  | t0Write => exact stepT0Write_cfg s
  | aChs L k => exact stepAChs_cfg L k s
  | iWait => exact stepIWait_cfg s
  | _ => rfl

theorem hostStep_cfg (v : Byte) (s : State) : (hostStep v s).cfg = s.cfg := by
  unfold hostStep
  split <;> rfl

theorem turnResult_cfg (e : Event) (s : State) : (turnResult e s).cfg = s.cfg := by
  cases e with
  | fg draw => exact fgStep_cfg draw s
  | rxh =>
    simp only [turnResult]
    split
    · exact (commandResult_frame _ _).cfg
    · rfl
  | host v => exact hostStep_cfg v s
  | _ => rfl

theorem step_cfg {s t : State} (h : step s = .next t) : t.cfg = s.cfg := by
  obtain ⟨agenda, freeIdx, hrest⟩ := nextEvent_rest s
  rw [step_eq, hrest] at h
  cases h
  exact turnResult_cfg _ _

/-! ### Runs -/

/-- What every step keeps holds at the end of every run from a state at which it holds. -/
theorem run_induction {M : Host.Core} {P : M.State → Prop} (hstep : ∀ s t, P s → M.step s = .next t → P t)
    {n : Nat} {s t : M.State} (hs : P s) (hrun : M.run n s = .next t) : P t := by
  induction n generalizing s with
  | zero => cases hrun; exact hs
  | succ n ih =>
    rw [Host.Core.run] at hrun
    split at hrun
    case h_1 s' hnext => exact ih (hstep s s' hs hnext) hrun
    all_goals cases hrun

/-- At most one layer is lit (R36 a). -/
theorem Invariants.enabled_unique {s : State} (hs : Invariants s) {L M : Layer} (hL : s.enabled L = true)
    (hM : s.enabled M = true) : L = M :=
  Option.some.inj ((hs.enabledLayer L hL).symm.trans (hs.enabledLayer M hM))

/-- The masked positions: those of the bit-0 slots, and `F_UNMASK` (R36 e). -/
theorem masked_eq_true_iff (m : MicroStep) : m.masked = true ↔ m = .fUnmask ∨
    ∃ l, m = .fShift 0 l ∨ m = .fWait 0 l ∨ m = .fOff 0 l ∨ m = .fLatch 0 l ∨ m = .fOn 0 l := by
  cases m <;> simp [MicroStep.masked]

/-- Settles O25: the invariants hold after reset, every step keeps them and the configuration, and R36 follows. -/
theorem reachableStatesKeepR36 : Obligations.ReachableStatesKeepR36 := by
  intro c u schedule start n t hrun
  have hreset : Invariants { State.resetWith c u with agenda := schedule, freeIdx := start } :=
    (invariants_resetWith c u).unread
  obtain ⟨ht, hcfg⟩ : Invariants t ∧ t.cfg = c :=
    run_induction (M := core) (P := fun s : State => Invariants s ∧ s.cfg = c)
      (fun _ _ ⟨hs, hc⟩ h => ⟨hs.step h, (step_cfg h).trans hc⟩) ⟨hreset, rfl⟩ hrun
  exact ⟨fun _ _ => ht.enabled_unique, by omega, by omega, hcfg ▸ ht.counterInRange,
    ht.maskedExactly.trans (masked_eq_true_iff t.seq), ht.animationStateInRange⟩

end Sys2Proof.Machine

/-! ## The voxel layout and the masking of store addresses (R37, R38) -/

namespace Sys2Proof.Machine

open Sys2Proof

/-! ### The layout of R37 -/

/-- R37's formula for the address of row `r`, column `c` of layer `L`. -/
theorem voxelAddr_positionOf (L : Layer) (r c : Fin 4) :
    voxelAddr L (positionOf r c) = 16 * L.val + 4 * r.val + c.val :=
  (Nat.add_assoc _ _ _).symm

/-- The fields of an address, put together again, give the address. -/
theorem voxelAddr_layerOf_rowOf_colOf (a : Fin 64) :
    voxelAddr (layerOf a) (positionOf (rowOf a) (colOf a)) = a.val := by
  rw [voxelAddr_positionOf]
  simp only [layerOf, rowOf, colOf]
  omega

/-- Layer `L` holds the sixteen addresses from `16L`. -/
theorem voxelAddr_mem_layer (L : Layer) (p : Pos) :
    16 * L.val ≤ voxelAddr L p ∧ voxelAddr L p ≤ 16 * L.val + 15 := by
  unfold voxelAddr
  omega

/-! ### The masking of R38 -/

theorem read_mod (s : State) (a : Nat) : s.read (a % 64) = s.read a := by
  simp only [State.read, Nat.mod_mod]

theorem write_mod (s : State) (a : Nat) (v : Byte) : s.write (a % 64) v = s.write a v := by
  simp only [State.write, Nat.mod_mod]

/-- Settles O31: the layout is arithmetic on the address, and the masking follows from `read_write`, which compares
addresses modulo 64. -/
theorem storeLayoutAndMasking : Obligations.StoreLayoutAndMasking := by
  refine ⟨voxelAddr_positionOf, fun a => ⟨voxelAddr_layerOf_rowOf_colOf a, rfl, rfl, rfl⟩, voxelAddr_mem_layer,
    fun s a v => ⟨read_mod s a, write_mod s a v, ?_, fun x hx => ?_⟩⟩
  · rw [read_write, if_pos rfl]
  · rw [read_write, if_neg hx]

end Sys2Proof.Machine

/-! ## The opcode map and the pseudo-instructions (R54 to R60)

First what the decoder reads, by the two high bits of the byte; then what a stream of `DATA` commands leaves, and the
expansions of R60 on top of it. -/

namespace Sys2Proof

/-! ### The opcode map of R56 -/

/-- Bit 7 of a byte, by its value. -/
theorem getLsbD_seven (x : Byte) : x.getLsbD 7 = decide (0x80 ≤ x.toNat) := by
  rw [BitVec.getLsbD, Nat.testBit_eq_decide_div_mod_eq]
  congr 1
  exact propext (by omega)

/-- Bit 6 of a byte with bit 7 set, by the byte's value. -/
theorem getLsbD_six {x : Byte} (h : 0x80 ≤ x.toNat) : x.getLsbD 6 = decide (0xC0 ≤ x.toNat) := by
  rw [BitVec.getLsbD, Nat.testBit_eq_decide_div_mod_eq]
  congr 1
  exact propext (by omega)

/-- The six operand bits of a byte are its distance from any multiple of 64 below it. -/
theorem extractLsb'_eq_ofNat_sub {x : Byte} {base : Nat} (hbase : base % 64 = 0) (h : base ≤ x.toNat) :
    x.extractLsb' 0 6 = BitVec.ofNat 6 (x.toNat - base) := by
  apply BitVec.eq_of_toNat_eq
  rw [BitVec.extractLsb'_toNat, BitVec.toNat_ofNat, Nat.shiftRight_zero]
  omega

/-- Format `DAT` (R54). -/
theorem decodeByte_data {x : Byte} (h : x.toNat < 0x80) : decodeByte x = .data x := by
  have h7 : x.getLsbD 7 = false := by rw [getLsbD_seven]; simpa using h
  rw [decodeByte, if_pos h7]

/-- Format `CTL` (R54). -/
theorem decodeByte_control {x : Byte} (hlo : 0x80 ≤ x.toNat) (hhi : x.toNat < 0xC0) :
    decodeByte x = decodeControl (BitVec.ofNat 6 (x.toNat - 0x80)) := by
  have h7 : x.getLsbD 7 = true := by rw [getLsbD_seven]; simpa using hlo
  have h6 : x.getLsbD 6 = false := by rw [getLsbD_six hlo]; simpa using hhi
  rw [decodeByte, h7, h6, if_neg Bool.true_eq_false_eq_False, if_neg Bool.false_ne_true,
    extractLsb'_eq_ofNat_sub rfl hlo]

/-- Format `CUR` (R54). -/
theorem decodeByte_setcur {x : Byte} (h : 0xC0 ≤ x.toNat) :
    decodeByte x = .setcur (BitVec.ofNat 6 (x.toNat - 0xC0)) := by
  have hlo : 0x80 ≤ x.toNat := by omega
  have h7 : x.getLsbD 7 = true := by rw [getLsbD_seven]; simpa using hlo
  have h6 : x.getLsbD 6 = true := by rw [getLsbD_six hlo]; simpa using h
  rw [decodeByte, h7, h6, extractLsb'_eq_ofNat_sub rfl h]
  rfl

/-- From control opcode 6 on, the opcode's value selects the reserved row (R58). -/
theorem decodeControl_reserved {o : BitVec 6} (h : 6 ≤ o.toNat) : decodeControl o =
    if o.toNat ≤ 7 then .ctrl6to7 o else if o.toNat ≤ 15 then .ctrl8to15 o
    else if o.toNat ≤ 31 then .ctrl16to31 o else .ctrl32to63 o := by
  have hne : ∀ k : BitVec 6, k.toNat < 6 → o ≠ k := by rintro k hk rfl; omega
  simp only [decodeControl, hne _ (by decide : (0#6).toNat < 6), hne _ (by decide : (1#6).toNat < 6),
    hne _ (by decide : (2#6).toNat < 6), hne _ (by decide : (3#6).toNat < 6), hne _ (by decide : (4#6).toNat < 6),
    hne _ (by decide : (5#6).toNat < 6), if_false]

/-- A byte of a reserved row, by the byte's value. -/
theorem decodeByte_reserved {x : Byte} (hlo : 0x86 ≤ x.toNat) (hhi : x.toNat < 0xC0) :
    decodeByte x =
      let o := BitVec.ofNat 6 (x.toNat - 0x80)
      if x.toNat ≤ 0x87 then .ctrl6to7 o else if x.toNat ≤ 0x8F then .ctrl8to15 o
      else if x.toNat ≤ 0x9F then .ctrl16to31 o else .ctrl32to63 o := by
  have ho : (BitVec.ofNat 6 (x.toNat - 0x80)).toNat = x.toNat - 0x80 := by
    rw [BitVec.toNat_ofNat]; omega
  rw [decodeByte_control (by omega) hhi, decodeControl_reserved (by omega), ho]
  simp only [Nat.sub_le_iff_le_add, Nat.reduceAdd]

/-- Settles O1: the three formats by the byte's value, and within `CTL` the six commands byte by byte and the reserved
rows by range. -/
theorem opcodeMapOfEveryByte : Obligations.OpcodeMapOfEveryByte := by
  intro x
  refine ⟨decodeByte_data, ?_, ?_, ?_, ?_, ?_, ?_, fun ⟨hlo, hhi⟩ => ?_, fun ⟨hlo, hhi⟩ => ?_,
    fun ⟨hlo, hhi⟩ => ?_, fun ⟨hlo, hhi⟩ => ?_, decodeByte_setcur⟩
  iterate 6 · rintro rfl; rfl
  all_goals rw [decodeByte_reserved (by omega) (by omega)]
  · exact if_pos hhi
  · rw [if_neg (by omega), if_pos hhi]
  · rw [if_neg (by omega), if_neg (by omega), if_pos hhi]
  · rw [if_neg (by omega), if_neg (by omega), if_neg (by omega)]

end Sys2Proof

namespace Sys2Proof.Machine

open Sys2Proof

/-! ### Streams of commands -/

/-- Only the address modulo 64 matters (R38). -/
theorem read_congr (s : State) {a b : Nat} (h : a % 64 = b % 64) : s.read a = s.read b := by
  rw [← read_mod s a, h, read_mod]

/-- The state a stream of commands leaves. -/
def streamResult (is : List Instr) (s : State) : State := is.foldl (fun t i => commandResult i t) s

@[simp] theorem streamResult_nil (s : State) : streamResult [] s = s := rfl

@[simp] theorem streamResult_cons (i : Instr) (is : List Instr) (s : State) :
    streamResult (i :: is) s = streamResult is (commandResult i s) := rfl

/-- Every stream of commands answers a next state, and this one. -/
theorem execAll_eq (is : List Instr) (s : State) : execAll is s = .next (streamResult is s) := by
  induction is generalizing s with
  | nil => rfl
  | cons i is ih => rw [execAll, exec_eq]; exact ih _

@[simp] theorem commandResult_data_cursor (v : Byte) (s : State) :
    (commandResult (.data v) s).cursor = s.cursor + 1#6 := rfl

/-- `DATA v` writes the voxel at the cursor (R119). -/
theorem read_commandResult_data (v : Byte) (s : State) (a : Nat) :
    (commandResult (.data v) s).read a = if a % 64 = s.cursor.toNat then v else s.read a := by
  rw [← Nat.mod_eq_of_lt s.cursor.isLt]
  exact read_write _ _ _ _

/-- Each `DATA` moves the cursor on by one, modulo 64. -/
theorem streamResult_data_cursor (vs : List Byte) (s : State) :
    (streamResult (vs.map .data) s).cursor = s.cursor + BitVec.ofNat 6 vs.length := by
  induction vs generalizing s with
  | nil => exact (BitVec.add_zero _).symm
  | cons v vs ih =>
    rw [List.map_cons, streamResult_cons, ih, commandResult_data_cursor, BitVec.add_assoc, List.length_cons,
      Nat.add_comm vs.length, BitVec.ofNat_add]

/-- At most 64 `DATA` bytes lie from the cursor on in the order sent, none over another, and the rest of the store is
as it was (R122). -/
theorem read_streamResult_data {vs : List Byte} (s : State) {k : Nat} (hvs : vs.length ≤ 64) (hk : k < 64) :
    (streamResult (vs.map .data) s).read (s.cursor.toNat + k) = vs[k]?.getD (s.read (s.cursor.toNat + k)) := by
  induction vs generalizing s k with
  | nil => rfl
  | cons v vs ih =>
    rw [List.map_cons, streamResult_cons]
    have hlen : vs.length < 64 := hvs
    have hcursor : (commandResult (.data v) s).cursor.toNat = (s.cursor.toNat + 1) % 64 := BitVec.toNat_add _ _
    cases k with
    | zero =>
      -- the voxel just written is the last of the 64 that the rest of the stream could come to
      have hat : ∀ t : State, t.read ((commandResult (.data v) s).cursor.toNat + 63) = t.read (s.cursor.toNat + 0) :=
        fun t => read_congr t (by omega)
      rw [← hat, ih _ (by omega) (by omega), hat, List.getElem?_eq_none (by omega), read_commandResult_data,
        if_pos (by omega)]
      rfl
    | succ k =>
      have hat : ∀ t : State, t.read ((commandResult (.data v) s).cursor.toNat + k) =
          t.read (s.cursor.toNat + (k + 1)) :=
        fun t => read_congr t (by omega)
      rw [← hat, ih _ (by omega) (by omega), hat, read_commandResult_data, if_neg (by omega), List.getElem?_cons_succ]

/-- `CURHOME` and then 64 `DATA` bytes: byte `a` at address `a`, and the cursor home again. -/
theorem streamResult_curhome_data {vs : List Byte} (s : State) (hvs : vs.length = 64) :
    (streamResult (.curhome :: vs.map .data) s).cursor = 0#6 ∧
    ∀ a, (h : a < vs.length) → (streamResult (.curhome :: vs.map .data) s).read a = vs[a] := by
  have hcursor : (commandResult .curhome s).cursor = 0#6 := rfl
  rw [streamResult_cons]
  constructor
  · rw [streamResult_data_cursor, hvs, hcursor]
    rfl
  · intro a ha
    have hread := read_streamResult_data (commandResult .curhome s) (k := a) hvs.le (hvs ▸ ha)
    rw [hcursor, List.getElem?_eq_getElem ha] at hread
    simpa using hread

/-! ### The assembler -/

/-- Operands in range assemble to one `DATA` each. -/
theorem asmDatas_eq {vs : List Nat} (hvs : ∀ v ∈ vs, v < 128) :
    asmDatas vs = .ok ((vs.map (BitVec.ofNat 8)).map .data) := by
  induction vs with
  | nil => rfl
  | cons v vs ih =>
    obtain ⟨hv, hvs⟩ := List.forall_mem_cons.mp hvs
    rw [asmDatas, asmData, if_pos hv, ih hvs]
    rfl

theorem assemble_write {a v : Nat} (ha : a < 64) (hv : v < 128) :
    assemble (.write a v) = .ok [.setcur (BitVec.ofNat 6 a), .data (BitVec.ofNat 8 v)] := by
  rw [assemble, asmSetcur, asmData, if_pos ha, if_pos hv]

theorem assemble_loadframe {vs : List Nat} (hlen : vs.length = 64) (hvs : ∀ v ∈ vs, v < 128) :
    assemble (.loadframe vs) = .ok (.curhome :: (vs.map (BitVec.ofNat 8)).map .data) := by
  rw [assemble, if_pos hlen, asmDatas_eq hvs]
  rfl

/-- `LOADALL v` is `LOADFRAME` of 64 times `v`. -/
theorem assemble_loadall (v : Nat) : assemble (.loadall v) = assemble (.loadframe (List.replicate 64 v)) := by
  rw [assemble, assemble, if_pos List.length_replicate]

/-! ### The pseudo-instructions of R60 -/

/-- A reserved control opcode writes the trace alone (R120). -/
theorem unchanged_record (s : State) (e : SilentEvent) : Unchanged [.trace] s (s.record e) := by
  intro f hf
  cases f with
  | trace => exact absurd (List.mem_singleton.mpr rfl) hf
  | store => exact fun _ => rfl
  | _ => exact rfl

theorem nop_leaves_state (s : State) : ∃ is t, assembleBytes .nop = .ok [0xBF#8] ∧ assemble .nop = .ok is ∧
    execAll is s = .next t ∧ Unchanged [.trace] s t :=
  ⟨[.ctrl32to63 63#6], _, rfl, rfl, rfl, unchanged_record s (.unknownOpcode 63#6)⟩

theorem write_leaves_byte {a v : Nat} (s : State) (ha : a < 64) (hv : v < 128) : ∃ is t,
    assemble (.write a v) = .ok is ∧ is = [.setcur (BitVec.ofNat 6 a), .data (BitVec.ofNat 8 v)] ∧
    execAll is s = .next t ∧ t.read a = BitVec.ofNat 8 v ∧ t.cursor.toNat = (a + 1) % 64 := by
  refine ⟨_, _, assemble_write ha hv, rfl, execAll_eq _ _, ?_, ?_⟩
  · rw [streamResult_cons, streamResult_cons, streamResult_nil, read_commandResult_data]
    exact if_pos (BitVec.toNat_ofNat a 6).symm
  · have hcursor : (commandResult (.setcur (BitVec.ofNat 6 a)) s).cursor.toNat = a % 64 := BitVec.toNat_ofNat a 6
    rw [streamResult_cons, streamResult_cons, streamResult_nil, commandResult_data_cursor, BitVec.toNat_add, hcursor]
    exact Nat.mod_add_mod a 64 1

theorem loadframe_leaves_values {vs : List Nat} (s : State) (hlen : vs.length = 64) (hvs : ∀ v ∈ vs, v < 128) :
    ∃ is t, assemble (.loadframe vs) = .ok is ∧ is = .curhome :: vs.map (fun v => .data (BitVec.ofNat 8 v)) ∧
      execAll is s = .next t ∧ t.cursor = 0#6 ∧ ∀ a, (h : a < vs.length) → t.read a = BitVec.ofNat 8 vs[a] := by
  obtain ⟨hcursor, hread⟩ := streamResult_curhome_data (vs := vs.map (BitVec.ofNat 8)) s (by rwa [List.length_map])
  refine ⟨_, _, assemble_loadframe hlen hvs, congrArg _ List.map_map, execAll_eq _ _, hcursor, fun a ha => ?_⟩
  rw [hread a (by rwa [List.length_map]), List.getElem_map]

theorem loadall_leaves_value {v : Nat} (s : State) (hv : v < 128) : ∃ is t,
    assemble (.loadall v) = .ok is ∧ is = .curhome :: List.replicate 64 (.data (BitVec.ofNat 8 v)) ∧
    execAll is s = .next t ∧ t.cursor = 0#6 ∧ ∀ a, t.read a = BitVec.ofNat 8 v := by
  obtain ⟨is, t, hasm, his, hexec, hcursor, hread⟩ :=
    loadframe_leaves_values s List.length_replicate fun w hw => List.eq_of_mem_replicate hw ▸ hv
  refine ⟨is, t, (assemble_loadall v).trans hasm, his.trans (congrArg _ List.map_replicate), hexec, hcursor,
    fun a => ?_⟩
  have ha : a % 64 < (List.replicate 64 v).length := by rw [List.length_replicate]; exact Nat.mod_lt a (by decide)
  rw [← read_mod, hread _ ha, List.getElem_replicate]

/-- Settles O18: `LOADALL` is a `LOADFRAME` of equal values, and a `LOADFRAME` is the 64 `DATA` bytes of
`read_streamResult_data` from cursor 0. -/
theorem pseudoInstructionsLeaveWhatTheyName : Obligations.PseudoInstructionsLeaveWhatTheyName := by
  refine ⟨nop_leaves_state, fun _ _ s ha hv => write_leaves_byte s ha hv, fun _ s hv => loadall_leaves_value s hv,
    fun vs s hlen hvs => ?_⟩
  obtain ⟨is, t, hasm, his, hexec, -, hread⟩ := loadframe_leaves_values s hlen hvs
  exact ⟨is, t, hasm, his, hexec, hread⟩

end Sys2Proof.Machine

/-! ## The bit-plane datapath (R62 to R66) -/

namespace Sys2Proof

/-! ### Which configurations R9 admits -/

/-- No entry stands twice in a vector iff equal entries stand at equal places. -/
theorem nodup_toList_iff_injective {α : Type} {n : Nat} (v : Vector α n) :
    v.toList.Nodup ↔ Function.Injective fun i : Fin n => v[i] := by
  have hofFn : Vector.ofFn (fun i : Fin n => v[i]) = v := by
    ext i hi
    exact Vector.getElem_ofFn hi
  rw [← List.nodup_ofFn, ← Vector.toList_ofFn, hofFn]

/-- The check of the wiring is R65's: sixteen different entries of 0..15 are all of them. -/
theorem Config.wiringOk_iff (c : Config) : c.wiringOk = true ↔ Function.Bijective c.wire :=
  decide_eq_true_iff.trans ((nodup_toList_iff_injective c.wiring).trans Finite.injective_iff_bijective)

theorem Config.layerLine_nodup_iff (c : Config) : c.layerLine.toList.Nodup ↔ Function.Injective c.line :=
  nodup_toList_iff_injective c.layerLine

/-- R9's constraints, as the check takes them. -/
theorem Config.valid_iff (c : Config) : c.valid = true ↔
    (((Function.Bijective c.wire ∧ Function.Injective c.line) ∧ 444 < c.counterPeriod) ∧
      c.counterPeriod ≤ 2 ^ c.counterWidth) ∧ c.maxBright &&& 0x7F#8 = 0x7F#8 := by
  simp only [Config.valid, Bool.and_eq_true, decide_eq_true_eq, beq_iff_eq, Config.wiringOk_iff,
    Config.layerLine_nodup_iff]

/-- Every admitted configuration has a bijective wiring (R65). -/
theorem wire_bijective (c : ValidConfig) : Function.Bijective c.val.wire := by
  obtain ⟨⟨⟨⟨hwire, -⟩, -⟩, -⟩, -⟩ := (Config.valid_iff c.val).mp c.property
  exact hwire

end Sys2Proof

namespace Sys2Proof.Machine

open Sys2Proof

theorem powerUp_of_valid {c : Config} (h : c.valid = true) (u : Unspecified) :
    powerUp c u = .next (State.resetWith ⟨c, h⟩ u) := dif_pos h

theorem powerUp_of_not_valid {c : Config} (h : ¬c.valid = true) (u : Unspecified) :
    powerUp c u = .refused .invalidConfiguration := dif_neg h

/-- Settles O21: power-up and the type of the state's configuration both go by `Config.valid`. -/
theorem nonBijectiveWiringIsRefused : Obligations.NonBijectiveWiringIsRefused := by
  refine ⟨fun c u hwire => powerUp_of_not_valid (fun h => hwire (wire_bijective ⟨c, h⟩)) u,
    fun c u hwire hline hperiod hwidth hbright => ?_, fun s => wire_bijective s.cfg⟩
  have hvalid := c.valid_iff.mpr ⟨⟨⟨⟨hwire, hline⟩, hperiod⟩, hwidth⟩, hbright⟩
  exact ⟨hvalid, powerUp_of_valid hvalid u⟩

/-! ### Writing one bit at each of several places -/

/-- Bits written one after another, each at the place of its position: a place holds its position's bit if that was
among those written, and else what it held before. -/
theorem getLsbD_foldl_setBit {W : Pos → Pos} (hW : Function.Injective W) (x : Pos → Bool) (ps : List Pos) (w : Word)
    (q : Pos) : (ps.foldl (fun P p => setBit P (W p) (x p)) w).getLsbD (W q).val =
      if q ∈ ps then x q else w.getLsbD (W q).val := by
  induction ps generalizing w with
  | nil => rfl
  | cons p ps ih =>
    rw [List.foldl_cons, ih, setBit_getLsbD]
    by_cases hqp : q = p
    · subst hqp; simp
    · simp [hqp, hW.eq_iff]

/-! ### What BitPlanes reads of a vector (R62 to R64) -/

theorem bitPlanes_get (V : Pos → Byte) (W : Pos → Pos) (b : Plane) : (bitPlanes V W)[b] = bitPlane V W b :=
  Vector.getElem_ofFn b.isLt

/-- The words are functions of the intensities' bits 6:0. -/
theorem bitPlanes_congr {V V' : Pos → Byte} (h : ∀ (p : Pos) (b : Plane), (V p).getLsbD b.val = (V' p).getLsbD b.val)
    (W : Pos → Pos) : bitPlanes V W = bitPlanes V' W := by
  simp only [bitPlanes, bitPlane, h]

/-- Output `W p` takes its bit from position `p`. -/
theorem getLsbD_bitPlane {W : Pos → Pos} (hW : Function.Injective W) (V : Pos → Byte) (b : Plane) (p : Pos) :
    (bitPlane V W b).getLsbD (W p).val = (V p).getLsbD b.val :=
  (getLsbD_foldl_setBit hW (fun p => (V p).getLsbD b.val) _ _ p).trans (if_pos (List.mem_finRange p))

/-- The mask 0x7F keeps the bit of every plane. -/
theorem getLsbD_and_0x7F (x : Byte) (b : Plane) : (x &&& 0x7F#8).getLsbD b.val = x.getLsbD b.val := by
  have hmask : ∀ b : Plane, (0x7F#8).getLsbD b.val = true := by decide
  rw [BitVec.getLsbD_and, hmask, Bool.and_true]

/-- XOR with 0x80 leaves the bit of every plane. -/
theorem getLsbD_xor_0x80 (x : Byte) (b : Plane) : (x ^^^ 0x80#8).getLsbD b.val = x.getLsbD b.val := by
  have hmask : ∀ b : Plane, (0x80#8).getLsbD b.val = false := by decide
  rw [BitVec.getLsbD_xor, hmask, Bool.xor_false]

/-- Settles O42: the seven planes read bits 6:0 alone (`bitPlanes_congr`), the bits the mask 0x7F keeps and XOR with
0x80 leaves. -/
theorem bitPlanesIgnoreBitSeven : Obligations.BitPlanesIgnoreBitSeven := by
  refine ⟨fun V V' W h => bitPlanes_congr (fun p b => ?_) W,
    fun V W => bitPlanes_congr (fun p b => getLsbD_xor_0x80 (V p) b) W⟩
  rw [← getLsbD_and_0x7F, h, getLsbD_and_0x7F]

/-- Settles O43: the position is the wiring's one preimage of the output, and its bit is that of `getLsbD_bitPlane`. -/
theorem bitPlanesTakeEachPositionOnce : Obligations.BitPlanesTakeEachPositionOnce := by
  intro V W hW k
  obtain ⟨p, rfl⟩ := hW.surjective k
  refine ⟨p, rfl, fun _ h => hW.injective h, fun b => ?_⟩
  rw [bitPlanes_get, getLsbD_bitPlane hW.injective]

/-! ### One micro-step of the rebuild (R66) -/

theorem fgStep_rb {s : State} {l : Layer} {p : Pos} (hseq : s.seq = .rb l p) (draw : BitVec 2) :
    fgStep draw s = stepRb l p s := by
  unfold fgStep
  rw [hseq]

/-- `RB(l,p)` writes the words of layer `l`, each at output `WIRING(p)`. -/
theorem stepRb_plane (l : Layer) (p : Pos) (s : State) (m : Layer) (b : Plane) : (stepRb l p s).plane m b =
    if m = l then setBit (s.plane m b) (s.cfg.val.wire p) ((s.read (voxelAddr l p)).getLsbD b.val)
    else s.plane m b := by
  simp only [stepRb, State.plane, goto_pl]
  by_cases hml : m = l
  · subst hml
    rw [if_pos rfl, ← setPlanes_get]
    simp
  · have hne : l.val ≠ m.val := fun h => hml (Fin.ext h.symm)
    simp [hml, Vector.getElem_set_ne, hne]

theorem stepRb_plane_getLsbD (l : Layer) (p : Pos) (s : State) (m : Layer) (b : Plane) (k : Pos) :
    ((stepRb l p s).plane m b).getLsbD k.val =
      if m = l ∧ k = s.cfg.val.wire p then (s.read (voxelAddr l p)).getLsbD b.val
      else (s.plane m b).getLsbD k.val := by
  rw [stepRb_plane, ite_and]
  split
  · rw [setBit_getLsbD]
  · rfl

/-- Before the last position `RB(l,p)` goes on to the next one (R76). -/
theorem stepRb_seq_of_next {p q : Pos} (h : q.val = p.val + 1) (l : Layer) (s : State) :
    (stepRb l p s).seq = .rb l q := by
  simp only [stepRb, goto_seq, nextIn_eq_some.mpr h]

/-- The last position ends the layer's rebuild (R76). -/
theorem stepRb_seq_last (l : Layer) (s : State) : (stepRb l 15 s).seq = afterRebuild l := rfl

theorem unchanged_stepRb (l : Layer) (p : Pos) (s : State) : Unchanged [.planes, .sequencer] s (stepRb l p s) := by
  intro f hf
  cases f with
  | planes => simp at hf
  | sequencer => simp at hf
  | store => exact fun _ => rfl
  | _ => exact rfl

/-- Settles O44 by the lemmas on `stepRb`. -/
theorem rebuildStepWritesOnePosition : Obligations.RebuildStepWritesOnePosition := by
  intro s d l p hseq
  refine ⟨stepRb l p s, congrArg _ (fgStep_rb hseq d), stepRb_plane_getLsbD l p s,
    fun _ h => stepRb_seq_of_next h l s, ?_, unchanged_stepRb l p s⟩
  rintro rfl
  exact stepRb_seq_last l s

end Sys2Proof.Machine

/-! ## The refresh scheduler: thresholds, slot order and the link counter (R72 to R82) -/

namespace Sys2Proof.Machine

open Sys2Proof

/-! ### The thresholds (R72, R73) -/

/-- R72's formula without its subtraction. -/
theorem threshold_add_four (l : Layer) (b : Plane) : threshold l b + 4 = 2 ^ b.val * (l.val + 4) := by
  have hpos : 0 < 2 ^ b.val := Nat.two_pow_pos _
  rw [threshold, Nat.mul_add]
  omega

/-- The next plane's threshold in the same layer. -/
theorem threshold_next_plane (l : Layer) {b b' : Plane} (hb : b'.val = b.val + 1) :
    threshold l b' = 2 * threshold l b + 4 := by
  have hnext := threshold_add_four l b'
  rw [hb, Nat.pow_succ', Nat.mul_assoc, ← threshold_add_four] at hnext
  omega

/-- The next layer's threshold in the same plane, one bit weight on. -/
theorem threshold_next_layer (b : Plane) {l l' : Layer} (hl : l'.val = l.val + 1) :
    threshold l' b = threshold l b + 2 ^ b.val := by
  rw [threshold, threshold, hl, Nat.mul_succ, Nat.add_assoc]

/-- Settles O33: from plane to plane by `threshold_next_plane`, from layer to layer by `threshold_next_layer`, and the
ends of a plane by `threshold_add_four`. -/
theorem thresholdsIncreaseInSlotOrder : Obligations.ThresholdsIncreaseInSlotOrder := by
  refine ⟨fun l b b' hb => ?_, fun b l l' hl => threshold_next_layer b hl, fun b b' hb => ?_⟩
  · rw [threshold_next_plane l hb]
    omega
  · have hlast : threshold 3 b + 4 = 2 ^ b.val * 7 := threshold_add_four 3 b
    have hfirst : threshold 0 b + 4 = 2 ^ b.val * 4 := threshold_add_four 0 b
    have hnext := threshold_next_plane 0 hb
    omega

/-! ### The order of the slots, the tasks and the rebuilds (R76) -/

/-- A state at `m` is itself put at `m`, so its turn is the one `fgStep` gives `m`. -/
theorem fgStep_of_seq {s : State} {m : MicroStep} (hseq : s.seq = m) (draw : BitVec 2) :
    fgStep draw s = fgStep draw (s.goto m) := by
  rw [← hseq]
  rfl

theorem fgStep_seq_of_seq {s : State} {m : MicroStep} (hseq : s.seq = m) (draw : BitVec 2) :
    (fgStep draw s).seq = (fgStep draw (s.goto m)).seq := congrArg State.seq (fgStep_of_seq hseq draw)

/-- Within a plane below 6 the slots go on from layer to layer. -/
theorem afterOn_next_layer {b : Plane} {l l' : Layer} (hb : b.val ≤ 5) (hl : l'.val = l.val + 1) :
    afterOn b l = .fShift b l' := by
  have hplane : nextIn b = some ⟨b.val + 1, by omega⟩ := nextIn_eq_some.mpr rfl
  simp only [afterOn, hplane, nextIn_eq_some.mpr hl]

/-- The last layer of a plane from 1 on leads to the next plane's first. -/
theorem afterOn_next_plane {b b' : Plane} (hb : 1 ≤ b.val) (hb' : b'.val = b.val + 1) :
    afterOn b 3 = .fShift b' 0 := by
  have hlayer : nextIn (3 : Layer) = none := nextIn_eq_none.mpr (by decide)
  have hne : b ≠ 0 := fun h => by simp [h] at hb
  simp only [afterOn, nextIn_eq_some.mpr hb', hlayer, if_neg hne]

/-- The rebuild of a layer leads to the next layer's slot of plane 6. -/
theorem afterRebuild_next_layer {l l' : Layer} (hl : l'.val = l.val + 1) : afterRebuild l = .fShift 6 l' := by
  simp only [afterRebuild, nextIn_eq_some.mpr hl]

theorem stepT1Gate_seq (s : State) : (stepT1Gate s).seq = .aBegin ∨ (stepT1Gate s).seq = .rb 1 0 := by
  rw [stepT1Gate, goto_seq]
  exact ite_eq_or_eq _ _ _

/-- What a button check of the frame may lead to (R126). -/
theorem firstOfAction_frame_mem (a : ButtonAction) :
    firstOfAction .frame a ∈ [MicroStep.bOff .frame, .bOn .frame, .bClr .frame 0, .rb 2 0] := by
  cases a <;> decide

/-- Settles O36: `fgStep_seq_of_seq` gives the successor at each position; it is a constant, or `afterOn` or
`afterRebuild` at the position's indices, or one of those of the gate and of the button check. -/
theorem slotsAreTakenInOrder : Obligations.SlotsAreTakenInOrder := by
  intro s t d hturn
  obtain rfl : fgStep d s = t := Host.Outcome.next.inj hturn
  refine ⟨fun b l l' hseq hb hl => (fgStep_seq_of_seq hseq d).trans (afterOn_next_layer hb hl),
    fun hseq => fgStep_seq_of_seq hseq d,
    fun b b' hseq hb hb' => (fgStep_seq_of_seq hseq d).trans (afterOn_next_plane hb hb'),
    fun hseq => fgStep_seq_of_seq hseq d, fun hseq => fgStep_seq_of_seq hseq d,
    fun hseq => fgStep_seq_of_seq hseq d, fun hseq => fgStep_seq_of_seq hseq d,
    fun hseq => fgStep_seq_of_seq hseq d, fun hseq => ?t1Gate, fun hseq => ?bSample, ?animationEnd, ?buttonEnd,
    fun l l' hseq hl => (fgStep_seq_of_seq hseq d).trans (afterRebuild_next_layer hl),
    fun hseq => fgStep_seq_of_seq hseq d⟩
  case t1Gate =>
    rw [fgStep_of_seq hseq]
    exact stepT1Gate_seq _
  case bSample =>
    rw [fgStep_of_seq hseq]
    exact firstOfAction_frame_mem _
  case animationEnd => rintro (hseq | hseq | hseq | hseq) <;> exact fgStep_seq_of_seq hseq d
  case buttonEnd => rintro (hseq | hseq | hseq) <;> exact fgStep_seq_of_seq hseq d

/-! ### The split decrement of the link counter (R81) -/

theorem fgStep_t0Read {s : State} (hseq : s.seq = .t0Read) (draw : BitVec 2) : fgStep draw s = stepT0Read s := by
  unfold fgStep
  rw [hseq]

theorem fgStep_t0Write {s : State} (hseq : s.seq = .t0Write) (draw : BitVec 2) : fgStep draw s = stepT0Write s := by
  unfold fgStep
  rw [hseq]

theorem unchanged_stepT0Read (s : State) : Unchanged [.tmp, .sequencer] s (stepT0Read s) := by
  intro f hf
  cases f with
  | tmp => simp at hf
  | sequencer => simp at hf
  | store => exact fun _ => rfl
  | _ => exact rfl

/-- `T0_WRITE` writes the link counter alone and goes on to `RB(0,0)`. -/
theorem stepT0Write_eq (s : State) : stepT0Write s =
    ({ s with usartTimeout := if s.tmp = 0#8 then s.usartTimeout else satDec s.tmp } : State).goto (.rb 0 0) := by
  unfold stepT0Write satDec
  split <;> rfl

/-- The value `T0_WRITE` leaves comes from `tmp`, unless that is 0. -/
theorem stepT0Write_usartTimeout_toNat (s : State) : (stepT0Write s).usartTimeout.toNat =
    if 0 < s.tmp.toNat then s.tmp.toNat - 1 else s.usartTimeout.toNat := by
  rw [stepT0Write_eq, goto_usartTimeout]
  by_cases htmp : s.tmp = 0#8
  · simp [htmp]
  · have hpos : 0 < s.tmp.toNat := Nat.pos_of_ne_zero fun h => htmp (BitVec.eq_of_toNat_eq h)
    rw [if_neg htmp, if_pos hpos, satDec_toNat]

theorem unchanged_stepT0Write (s : State) : Unchanged [.usartTimeout, .sequencer] s (stepT0Write s) := by
  rw [stepT0Write_eq]
  intro f hf
  cases f with
  | usartTimeout => simp at hf
  | sequencer => simp at hf
  | store => exact fun _ => rfl
  | _ => exact rfl

/-- Settles O46 by the lemmas on `stepT0Read` and `stepT0Write`. -/
theorem linkCounterDecrementIsSplit : Obligations.LinkCounterDecrementIsSplit := by
  intro s d
  exact ⟨fun hseq => ⟨stepT0Read s, congrArg _ (fgStep_t0Read hseq d), rfl, rfl, unchanged_stepT0Read s⟩,
    fun hseq => ⟨stepT0Write s, congrArg _ (fgStep_t0Write hseq d), rfl, stepT0Write_usartTimeout_toNat s,
      unchanged_stepT0Write s⟩⟩

end Sys2Proof.Machine

/-! ## The shift-out, the layer switch and the light (R91 to R98) -/

namespace Sys2Proof

/-- Every admitted configuration gives each layer an enable line of its own (R9). -/
theorem line_injective (c : ValidConfig) : Function.Injective c.val.line := by
  obtain ⟨⟨⟨⟨-, hline⟩, -⟩, -⟩, -⟩ := (Config.valid_iff c.val).mp c.property
  exact hline

end Sys2Proof

namespace Sys2Proof.Machine

open Sys2Proof

/-! ### The shift-out at pin level (R92) -/

/-- A CLOCK pulse puts DATA at stage 0, and each stage's bit moves up by one. -/
theorem getLsbD_clockPulse (chain : Word) (bit : Bool) {k : Nat} (hk : k < 16) :
    (clockPulse chain bit).getLsbD k = if k = 0 then bit else chain.getLsbD (k - 1) := by
  cases k with
  | zero => cases bit <;> simp [clockPulse]
  | succ k =>
    have hk' : k < 16 := by omega
    cases bit <;> simp [clockPulse, hk, BitVec.getLsbD_eq_getElem hk']

/-- After a train of pulses the chain holds the DATA values, the last one at stage 0, and above them what it held
before. -/
theorem getLsbD_foldl_clockPulse (chain : Word) (bits : List Bool) {k : Nat} (hk : k < 16) :
    (bits.foldl clockPulse chain).getLsbD k = bits.reverse[k]?.getD (chain.getLsbD (k - bits.length)) := by
  induction bits using List.reverseRecOn generalizing k with
  | nil => rfl
  | append_singleton bits bit ih =>
    rw [List.foldl_append, List.foldl_cons, List.foldl_nil, getLsbD_clockPulse _ _ hk, List.reverse_append]
    cases k with
    | zero => rfl
    | succ k =>
      rw [if_neg k.succ_ne_zero, Nat.add_sub_cancel, ih (by omega), List.length_append, List.length_singleton,
        Nat.add_sub_add_right]
      rfl

theorem length_dataBits (w : Word) : (dataBits w).length = 16 :=
  (List.length_map _).trans List.length_range

/-- The pulse that drives `w[k]`. -/
theorem getElem?_dataBits (w : Word) {k : Nat} (hk : k < 16) : (dataBits w)[15 - k]? = some (w.getLsbD k) := by
  rw [dataBits, List.getElem?_map, List.getElem?_range (by omega), Option.map_some, Nat.sub_sub_self (by omega)]

theorem shiftOut_eq (chain w : Word) : shiftOut chain w = w := by
  apply BitVec.eq_of_getLsbD_eq
  intro k hk
  have hlast : (dataBits w).reverse[k]? = some (w.getLsbD k) := by
    rw [List.getElem?_reverse (by rwa [length_dataBits]), length_dataBits, getElem?_dataBits w hk]
  rw [shiftOut, getLsbD_foldl_clockPulse _ _ hk, hlast, Option.getD_some]

/-- Settles O39: the sixteen values fill the chain, and read from the last pulse back they are `w`. -/
theorem sixteenPulsesShiftTheWordIn : Obligations.SixteenPulsesShiftTheWordIn :=
  fun chain w => ⟨length_dataBits w, fun k => getElem?_dataBits w k.isLt, shiftOut_eq chain w⟩

/-! ### The four steps of a slot (R91, R93 to R95) -/

section

variable {s : State} {b : Plane} {l : Layer}

theorem fgStep_fShift (hseq : s.seq = .fShift b l) (draw : BitVec 2) : fgStep draw s = stepFShift b l s := by
  unfold fgStep
  rw [hseq]

theorem fgStep_fOff (hseq : s.seq = .fOff b l) (draw : BitVec 2) : fgStep draw s = stepFOff b l s := by
  unfold fgStep
  rw [hseq]

theorem fgStep_fLatch (hseq : s.seq = .fLatch b l) (draw : BitVec 2) : fgStep draw s = stepFLatch b l s := by
  unfold fgStep
  rw [hseq]

theorem fgStep_fOn (hseq : s.seq = .fOn b l) (draw : BitVec 2) : fgStep draw s = stepFOn b l s := by
  unfold fgStep
  rw [hseq]

/-- No layer is lit between `F_OFF` and `F_ON` (R96). -/
theorem Invariants.dark_of_switch (hs : Invariants s)
    (hseq : s.seq = .fLatch b l ∨ s.seq = .fOn b l) (L : Layer) : s.enabled L = false := by
  refine hs.enabled_eq_false ?_ L
  rcases hseq with hseq | hseq <;> rw [hseq] <;> rfl

end

/-- Writing the chain, the latch, the enables and `seq` leaves every other part, and those of the four that keep their
value. -/
theorem unchanged_switch {s : State} {but : List Field} {sr out : Word} {en : Vector Bool 4} {m : MicroStep}
    (hsr : .shiftRegister ∈ but ∨ sr = s.sr) (hout : .outputLatch ∈ but ∨ out = s.out)
    (hen : .enables ∈ but ∨ en = s.en) (hseq : .sequencer ∈ but ∨ m = s.seq) :
    Unchanged but s { s with sr := sr, out := out, en := en, seq := m } := by
  intro f hf
  cases f with
  | shiftRegister => exact hsr.resolve_left hf
  | outputLatch => exact hout.resolve_left hf
  | enables => exact hen.resolve_left hf
  | sequencer => exact hseq.resolve_left hf
  | store => exact fun _ => rfl
  | _ => exact rfl

theorem unchanged_stepFShift (b : Plane) (l : Layer) (s : State) :
    Unchanged [.shiftRegister, .sequencer] s (stepFShift b l s) :=
  unchanged_switch (.inl (by decide)) (.inr rfl) (.inr rfl) (.inl (by decide))

theorem unchanged_stepFOff (b : Plane) (l : Layer) (s : State) :
    Unchanged [.enables, .sequencer] s (stepFOff b l s) :=
  unchanged_switch (.inr rfl) (.inr rfl) (.inl (by decide)) (.inl (by decide))

theorem unchanged_stepFLatch (b : Plane) (l : Layer) (s : State) :
    Unchanged [.outputLatch, .sequencer] s (stepFLatch b l s) :=
  unchanged_switch (.inr rfl) (.inl (by decide)) (.inr rfl) (.inl (by decide))

theorem unchanged_stepFOn (b : Plane) (l : Layer) (s : State) :
    Unchanged [.enables, .sequencer] s (stepFOn b l s) :=
  unchanged_switch (.inr rfl) (.inr rfl) (.inl (by decide)) (.inl (by decide))

/-- `F_OFF(b,l)` clears the enable of the layer before `l`. -/
theorem stepFOff_enabled (b : Plane) (l : Layer) (s : State) (L : Layer) :
    (stepFOff b l s).enabled L = if L.val = (l.val + 3) % 4 then false else s.enabled L :=
  (enabled_setEnable s (outgoing l) L false).trans (if_congr Fin.ext_iff rfl rfl)

/-- `F_ON(b,l)` sets the enable of layer `l`. -/
theorem stepFOn_enabled (b : Plane) (l : Layer) (s : State) (L : Layer) :
    (stepFOn b l s).enabled L = if L = l then true else s.enabled L :=
  enabled_setEnable s l L true

/-- Settles O37: each step's result is the named function's, and what the invariants add is that no layer may be lit at
`F_LATCH`, where `F_OFF` leads. -/
theorem shiftAndLayerSwitchSteps : Obligations.ShiftAndLayerSwitchSteps := by
  intro s d b l
  exact ⟨fun hseq => ⟨stepFShift b l s, congrArg _ (fgStep_fShift hseq d), rfl, rfl, unchanged_stepFShift b l s⟩,
    fun hseq => ⟨stepFOff b l s, congrArg _ (fgStep_fOff hseq d), rfl, stepFOff_enabled b l s,
      fun hs => (hs.stepFOff hseq).enabled_eq_false rfl, unchanged_stepFOff b l s⟩,
    fun hseq => ⟨stepFLatch b l s, congrArg _ (fgStep_fLatch hseq d), rfl, rfl, fun hs => hs.dark_of_switch (.inl hseq),
      unchanged_stepFLatch b l s⟩,
    fun hseq => ⟨stepFOn b l s, congrArg _ (fgStep_fOn hseq d), stepFOn_enabled b l s, rfl, unchanged_stepFOn b l s⟩⟩

/-! ### Who writes the enables and the latch (R21, R22) -/

/-- The registers between the store and the light are the same in both states: the bit-plane words, the chain, the
latch and the enables (R19 to R22). -/
structure SameDatapath (s t : State) : Prop where
  pl : t.pl = s.pl
  sr : t.sr = s.sr
  out : t.out = s.out
  en : t.en = s.en

theorem SameDatapath.refl (s : State) : SameDatapath s s := ⟨rfl, rfl, rfl, rfl⟩

theorem sameDatapath_stepFWait (b : Plane) (l : Layer) (s : State) : SameDatapath s (stepFWait b l s) := by
  unfold stepFWait
  split
  · exact ⟨noteLate_pl b l s, noteLate_sr b l s, noteLate_out b l s, noteLate_en b l s⟩
  · exact .refl s

theorem sameDatapath_stepT0Write (s : State) : SameDatapath s (stepT0Write s) := by
  rw [stepT0Write_eq]
  exact ⟨rfl, rfl, rfl, rfl⟩

theorem sameDatapath_stepAChs (L : Layer) (k : Fin 2) (s : State) : SameDatapath s (stepAChs L k s) := by
  unfold stepAChs
  split <;> exact ⟨rfl, rfl, rfl, rfl⟩

theorem sameDatapath_stepIWait (s : State) : SameDatapath s (stepIWait s) := by
  unfold stepIWait
  split <;> exact ⟨rfl, rfl, rfl, rfl⟩

/-- Of the foreground's micro-steps only `F_LATCH` writes the latch (R21). -/
theorem fgStep_out {s : State} (hseq : ¬∃ b l, s.seq = .fLatch b l) (draw : BitVec 2) :
    (fgStep draw s).out = s.out := by
  unfold fgStep
  cases hm : s.seq with
  | fLatch b l => exact absurd ⟨b, l, hm⟩ hseq
  | fWait b l => exact (sameDatapath_stepFWait b l s).out
  | t0Write => exact (sameDatapath_stepT0Write s).out
  | aChs L k => exact (sameDatapath_stepAChs L k s).out
  | iWait => exact (sameDatapath_stepIWait s).out
  | _ => rfl

/-- Of the foreground's micro-steps only `F_OFF`, `F_ON` and `I_OFF` write the enables (R22). -/
theorem fgStep_en {s : State} (hseq : ¬(s.seq = .iOff ∨ ∃ b l, s.seq = .fOff b l ∨ s.seq = .fOn b l))
    (draw : BitVec 2) : (fgStep draw s).en = s.en := by
  unfold fgStep
  cases hm : s.seq with
  | iOff => exact absurd (.inl hm) hseq
  | fOff b l => exact absurd (.inr ⟨b, l, .inl hm⟩) hseq
  | fOn b l => exact absurd (.inr ⟨b, l, .inr hm⟩) hseq
  | fWait b l => exact (sameDatapath_stepFWait b l s).en
  | t0Write => exact (sameDatapath_stepT0Write s).en
  | aChs L k => exact (sameDatapath_stepAChs L k s).en
  | iWait => exact (sameDatapath_stepIWait s).en
  | _ => rfl

/-- No agent but the foreground writes the datapath. -/
theorem sameDatapath_turnResult {e : Event} (he : ∀ d, e ≠ .fg d) (s : State) : SameDatapath s (turnResult e s) := by
  cases e with
  | fg draw => exact absurd rfl (he draw)
  | rxh =>
    simp only [turnResult]
    split
    · have frame := commandResult_frame (decodeByte s.rxBuf) { s with rxFull := false }
      exact ⟨frame.pl, frame.sr, frame.out, frame.en⟩
    · exact .refl s
  | tick => exact ⟨rfl, rfl, rfl, rfl⟩
  | host v =>
    simp only [turnResult, hostStep]
    split <;> exact ⟨rfl, rfl, rfl, rfl⟩
  | btn level => exact ⟨rfl, rfl, rfl, rfl⟩

section

variable {s t : State}

/-- A step that is no turn of the foreground leaves the datapath. -/
theorem step_sameDatapath (h : step s = .next t) (he : ∀ d, s.nextEvent.1 ≠ .fg d) : SameDatapath s t := by
  obtain ⟨agenda, freeIdx, hrest⟩ := nextEvent_rest s
  rw [step_eq, hrest] at h
  cases h
  obtain ⟨hpl, hsr, hout, hen⟩ := sameDatapath_turnResult he { s with agenda := agenda, freeIdx := freeIdx }
  exact ⟨hpl, hsr, hout, hen⟩

/-- Taking the next event writes the agenda and the free value's counter alone. -/
theorem unchanged_nextEvent (s : State) : Unchanged [.agenda, .freeIdx] s s.nextEvent.2 := by
  obtain ⟨agenda, freeIdx, hrest⟩ := nextEvent_rest s
  rw [hrest]
  intro f hf
  cases f with
  | agenda => simp at hf
  | freeIdx => simp at hf
  | store => exact fun _ => rfl
  | _ => exact rfl

/-- A step that is a turn of the foreground: its micro-step, on the state without the event taken. -/
theorem step_fg (h : step s = .next t) {d : BitVec 2} (he : s.nextEvent.1 = .fg d) :
    ∃ u, Unchanged [.agenda, .freeIdx] s u ∧ fgStep d u = t := by
  rw [step_eq, he] at h
  exact ⟨_, unchanged_nextEvent s, Host.Outcome.next.inj h⟩

/-- A step that changes the latch is the foreground's `F_LATCH`. -/
theorem fLatch_of_out_ne (h : step s = .next t) (hout : t.out ≠ s.out) :
    (∃ d, s.nextEvent.1 = .fg d) ∧ ∃ b l, s.seq = .fLatch b l ∧ t.seq = .fOn b l := by
  by_cases he : ∃ d, s.nextEvent.1 = .fg d
  · refine ⟨he, ?_⟩
    obtain ⟨d, hd⟩ := he
    obtain ⟨u, hu, rfl⟩ := step_fg h hd
    rw [← hu .outputLatch (by decide)] at hout
    rw [← hu .sequencer (by decide)]
    obtain ⟨b, l, hseq⟩ : ∃ b l, u.seq = .fLatch b l := by
      by_contra hseq
      exact hout (fgStep_out hseq d)
    exact ⟨b, l, hseq, fgStep_seq_of_seq hseq d⟩
  · exact absurd (step_sameDatapath h (not_exists.mp he)).out hout

/-- A step that lights a layer is the foreground's `F_ON` of that layer: after `F_OFF` and `I_OFF` no layer is lit. -/
theorem Invariants.fOn_of_enabled (hs : Invariants s) (h : Machine.step s = .next t) {L : Layer}
    (hdark : s.enabled L = false) (hlit : t.enabled L = true) :
    (∃ d, s.nextEvent.1 = .fg d) ∧ ∃ b, s.seq = .fOn b L := by
  have hen : t.en ≠ s.en := fun hen => by
    rw [State.enabled, hen] at hlit
    exact Bool.false_ne_true (hdark.symm.trans hlit)
  have hlayer := (hs.step h).enabledLayer L hlit
  by_cases he : ∃ d, s.nextEvent.1 = .fg d
  · refine ⟨he, ?_⟩
    obtain ⟨d, hd⟩ := he
    obtain ⟨u, hu, rfl⟩ := step_fg h hd
    rw [← hu .enables (by decide)] at hen
    rw [← hu .sequencer (by decide)]
    obtain hseq | ⟨b, l, hseq | hseq⟩ : u.seq = .iOff ∨ ∃ b l, u.seq = .fOff b l ∨ u.seq = .fOn b l := by
      by_contra hseq
      exact hen (fgStep_en hseq d)
    all_goals rw [fgStep_seq_of_seq hseq d] at hlayer
    · cases hlayer
    · cases hlayer
    · obtain rfl : l = L := Option.some.inj ((litLayer_afterOn b l).symm.trans hlayer)
      exact ⟨b, hseq⟩
  · exact absurd (step_sameDatapath h (not_exists.mp he)).en hen

/-- `F_ON` lights its layer with that layer's word in the latch (R95). -/
theorem PatternInFlight.lit_of_fOn (hp : PatternInFlight s) (h : step s = .next t) {d : BitVec 2} {b : Plane}
    {l : Layer} (he : s.nextEvent.1 = .fg d) (hseq : s.seq = .fOn b l) :
    t.enabled l = true ∧ t.out = t.plane l b ∧ t.plane l b = s.plane l b := by
  obtain ⟨u, hu, rfl⟩ := step_fg h he
  have hplane : u.plane l b = s.plane l b := by rw [State.plane, State.plane, hu .planes (by decide)]
  have hout : u.out = s.plane l b := (hu .outputLatch (by decide)).trans (hp.inLatch b l hseq)
  rw [fgStep_fOn ((hu .sequencer (by decide)).trans hseq)]
  exact ⟨(stepFOn_enabled b l u l).trans (if_pos rfl), hout.trans hplane.symm, hplane⟩

end

/-- Settles O26: the latch changes at `F_LATCH` alone and a layer is lit at its `F_ON` alone, and the invariants keep
both positions dark. -/
theorem layersNeverShowAnotherLayersPattern : Obligations.LayersNeverShowAnotherLayersPattern := by
  intro s t hs h
  have hswitch : t.out ≠ s.out → ∀ L, s.enabled L = false ∧ t.enabled L = false := by
    intro hout L
    obtain ⟨-, b, l, hseq, hseq'⟩ := fLatch_of_out_ne h hout
    exact ⟨hs.dark_of_switch (.inl hseq) L, (hs.step h).dark_of_switch (.inr hseq') L⟩
  refine ⟨fun L M => hs.enabled_unique, fun b l => hs.dark_of_switch, hswitch, fun he => ?others,
    fun L hlit _ => ?kept, fun L => hs.fOn_of_enabled h, fun hp d b l => hp.lit_of_fOn h⟩
  case others =>
    have hsame := step_sameDatapath h he
    exact ⟨hsame.en, hsame.out⟩
  case kept =>
    by_contra hout
    exact Bool.false_ne_true ((hswitch hout L).1.symm.trans hlit)

/-! ### The display output and the enable lines (R22, R97, R98) -/

theorem mem_litVoxels (s : State) (L : Layer) (p : Pos) : (L, p) ∈ litVoxels s ↔
    s.enabled L = true ∧ s.out.getLsbD (s.cfg.val.wire p).val = true := by
  simp [litVoxels, lit]

/-- The display output lists each lit voxel once. -/
theorem nodup_litVoxels (s : State) : (litVoxels s).Nodup :=
  ((List.nodup_finRange 4).product (List.nodup_finRange 16)).filter _

theorem mem_drivenLines (s : State) (n : Nat) :
    n ∈ drivenLines s ↔ ∃ L, s.enabled L = true ∧ s.cfg.val.line L = n := by
  simp [drivenLines]

/-- A layer's line is driven iff the layer is enabled: no two layers share a line. -/
theorem line_mem_drivenLines (s : State) (L : Layer) : s.cfg.val.line L ∈ drivenLines s ↔ s.enabled L = true := by
  rw [mem_drivenLines]
  constructor
  · rintro ⟨M, hM, hline⟩
    exact line_injective s.cfg hline ▸ hM
  · exact fun hL => ⟨L, hL, rfl⟩

theorem drivenLines_dark {s : State} (h : ∀ L, s.enabled L = false) : drivenLines s = [] := by
  simp [drivenLines, h]

section

variable {s : State}

theorem Invariants.litVoxels_one_layer (hs : Invariants s) {x y : Layer × Pos} (hx : x ∈ litVoxels s)
    (hy : y ∈ litVoxels s) : x.1 = y.1 := by
  obtain ⟨hxlit, -⟩ := (mem_litVoxels s x.1 x.2).mp hx
  obtain ⟨hylit, -⟩ := (mem_litVoxels s y.1 y.2).mp hy
  exact hs.enabled_unique hxlit hylit

/-- The lit voxels, all of one layer, have different positions of the sixteen. -/
theorem Invariants.length_litVoxels_le (hs : Invariants s) : (litVoxels s).length ≤ 16 := by
  have hpos : ((litVoxels s).map Prod.snd).Nodup :=
    (nodup_litVoxels s).map_on fun x hx y hy hxy => Prod.ext (hs.litVoxels_one_layer hx hy) hxy
  simpa using hpos.length_le_card

theorem Invariants.drivenLines_eq (hs : Invariants s) {L : Layer} (hL : s.enabled L = true) :
    drivenLines s = [s.cfg.val.line L] := by
  have hone : ∀ M, s.enabled M = (M == L) := fun M => by
    rw [Bool.eq_iff_iff, beq_iff_eq]
    exact ⟨fun hM => hs.enabled_unique hM hL, fun hM => hM ▸ hL⟩
  have hcount : (List.finRange 4).count L = 1 := List.count_eq_one_of_mem (List.nodup_finRange 4) (List.mem_finRange L)
  simp only [drivenLines, hone, List.filter_beq, hcount, List.replicate_one, List.map_singleton]

end

/-- Settles O27: the invariants let one layer be enabled, so the lit voxels differ in their positions and its line is
the one driven. -/
theorem atMostSixteenVoxelsLit : Obligations.AtMostSixteenVoxelsLit :=
  fun s hs => ⟨mem_litVoxels s, fun _ hx _ hy => hs.litVoxels_one_layer hx hy, hs.length_litVoxels_le,
    fun _ => hs.drivenLines_eq, drivenLines_dark, line_mem_drivenLines s⟩

end Sys2Proof.Machine

/-! ## The animation tasks (R99 to R108) -/

namespace Sys2Proof

/-- An admitted `MAX_BRIGHT` with bit 7 set is 0xFF: R9 asks for bits 0 to 6. -/
theorem maxBright_eq_of_bitSeven (c : ValidConfig) (h : c.val.maxBright.getLsbD 7 = true) :
    c.val.maxBright = 0xFF#8 := by
  obtain ⟨-, hlow⟩ := (Config.valid_iff c.val).mp c.property
  have hones : ∀ b : Plane, (0x7F#8).getLsbD b.val = (0xFF#8).getLsbD b.val := by decide
  refine BitVec.eq_of_getLsbD_eq fun i hi => ?_
  obtain hi7 | rfl : i < 7 ∨ i = 7 := by omega
  · have hbit := Machine.getLsbD_and_0x7F c.val.maxBright ⟨i, hi7⟩
    rw [hlow, hones] at hbit
    exact hbit.symm
  · exact h

theorem decodeControl_ne_data (o : BitVec 6) (v : Byte) : decodeControl o ≠ .data v := by
  unfold decodeControl
  repeat' split
  all_goals exact Instr.noConfusion

/-- The operand of a `DATA` is the byte itself, whose bit 7 is clear (R54). -/
theorem bitSeven_of_decodeByte_data {x v : Byte} (h : decodeByte x = .data v) : v.getLsbD 7 = false := by
  unfold decodeByte at h
  split at h
  case isTrue hx => exact Instr.data.inj h ▸ hx
  case isFalse =>
    split at h
    · cases h
    · exact absurd h (decodeControl_ne_data _ v)

end Sys2Proof

namespace Sys2Proof.Machine

open Sys2Proof

/-! ### What an animation micro-step writes -/

/-- Writing the store, the animation's two bytes and `seq` leaves every other part, and those of the four that keep
their value. -/
theorem unchanged_animation {s : State} {but : List Field} {mem : Memory} {animationState animS : Byte} {m : MicroStep}
    (hmem : .store ∈ but ∨ mem = s.mem) (hstate : .animationState ∈ but ∨ animationState = s.animationState)
    (hanimS : .animS ∈ but ∨ animS = s.animS) (hseq : .sequencer ∈ but ∨ m = s.seq) :
    Unchanged but s { s with mem := mem, animationState := animationState, animS := animS, seq := m } := by
  intro f hf
  cases f with
  | store => exact fun a => congrArg (Memory.read · (a % 64)) (hmem.resolve_left hf)
  | animationState => exact hstate.resolve_left hf
  | animS => exact hanimS.resolve_left hf
  | sequencer => exact hseq.resolve_left hf
  | _ => exact rfl

/-- One voxel write is the whole of a generator's micro-step (R100). -/
theorem storedOnly_write_goto (s : State) (a : Nat) (v : Byte) (m : MicroStep) :
    StoredOnly a v s ((s.write a v).goto m) :=
  ⟨(read_write s a a v).trans (if_pos rfl), fun x hx => (read_write s a x v).trans (if_neg hx)⟩

theorem unchanged_write_goto (s : State) (a : Nat) (v : Byte) (m : MicroStep) :
    Unchanged [.store, .sequencer] s ((s.write a v).goto m) :=
  unchanged_animation (.inl (by decide)) (.inr rfl) (.inr rfl) (.inl (by decide))

/-! ### The gate and the dispatch (R82, R101) -/

theorem fgStep_t1Gate {s : State} (hseq : s.seq = .t1Gate) (draw : BitVec 2) : fgStep draw s = stepT1Gate s := by
  unfold fgStep
  rw [hseq]

theorem fgStep_aBegin {s : State} (hseq : s.seq = .aBegin) (draw : BitVec 2) : fgStep draw s = stepABegin s := by
  unfold fgStep
  rw [hseq]

theorem gatePasses_iff (s : State) : gatePasses s = true ↔ s.usartTimeout = 0#8 ∧ s.on = true := by
  simp [gatePasses]

theorem stepT1Gate_seq_eq (s : State) :
    (stepT1Gate s).seq = if s.usartTimeout = 0#8 ∧ s.on = true then .aBegin else .rb 1 0 :=
  if_congr (gatePasses_iff s) rfl rfl

theorem unchanged_stepT1Gate (s : State) : Unchanged [.sequencer] s (stepT1Gate s) :=
  unchanged_animation (.inr rfl) (.inr rfl) (.inr rfl) (.inl (by decide))

theorem unchanged_stepABegin (s : State) : Unchanged [.animS, .sequencer] s (stepABegin s) :=
  unchanged_animation (.inr rfl) (.inr rfl) (.inl (by decide)) (.inl (by decide))

/-- Settles O48: the gate by `stepT1Gate_seq_eq`, and the dispatch is `firstOfAnimation` at each identifier. -/
theorem animationGateAndDispatch : Obligations.AnimationGateAndDispatch := by
  intro s d
  have hfirst : ∀ id, s.animationId = id → (stepABegin s).seq = firstOfAnimation id := fun _ => congrArg firstOfAnimation
  exact ⟨fun hseq => ⟨stepT1Gate s, congrArg _ (fgStep_t1Gate hseq d), stepT1Gate_seq_eq s, unchanged_stepT1Gate s⟩,
    fun hseq => ⟨stepABegin s, congrArg _ (fgStep_aBegin hseq d), rfl, hfirst 0, hfirst 1, hfirst 2, hfirst 3,
      unchanged_stepABegin s⟩⟩

/-! ### Chase (R106) -/

theorem fgStep_aChs {s : State} {L : Layer} {k : Fin 2} (hseq : s.seq = .aChs L k) (draw : BitVec 2) :
    fgStep draw s = stepAChs L k s := by
  unfold fgStep
  rw [hseq]

theorem fgStep_aChsEnd {s : State} (hseq : s.seq = .aChsEnd) (draw : BitVec 2) : fgStep draw s = stepAChsEnd s := by
  unfold fgStep
  rw [hseq]

/-- `A_CHS(L,0)` clears the position before the current one. -/
theorem storedOnly_stepAChs_zero (L : Layer) (s : State) :
    StoredOnly (16 * L.val + (s.animS.toNat % 16 + 15) % 16) 0x00#8 s (stepAChs L 0 s) :=
  storedOnly_write_goto s _ _ _

/-- `A_CHS(L,1)` lights the current position. -/
theorem storedOnly_stepAChs_one (L : Layer) (s : State) :
    StoredOnly (16 * L.val + s.animS.toNat % 16) s.cfg.val.maxBright s (stepAChs L 1 s) :=
  storedOnly_write_goto s _ _ _

theorem unchanged_stepAChs (L : Layer) (k : Fin 2) (s : State) :
    Unchanged [.store, .sequencer] s (stepAChs L k s) := by
  unfold stepAChs
  split <;> exact unchanged_write_goto s _ _ _

theorem stepAChs_one_seq_of_next {L M : Layer} (h : M.val = L.val + 1) (s : State) :
    (stepAChs L 1 s).seq = .aChs M 0 := by
  simp [stepAChs, nextIn_eq_some.mpr h]

theorem stepAChs_one_seq_last (s : State) : (stepAChs 3 1 s).seq = .aChsEnd := rfl

theorem stepAChsEnd_animationState_toNat (s : State) :
    (stepAChsEnd s).animationState.toNat = (s.animS.toNat % 16 + 1) % 16 :=
  Nat.mod_eq_of_lt (by omega)

theorem unchanged_stepAChsEnd (s : State) : Unchanged [.animationState, .sequencer] s (stepAChsEnd s) :=
  unchanged_animation (.inr rfl) (.inl (by decide)) (.inr rfl) (.inl (by decide))

/-- Settles O52 by the lemmas on `stepAChs` and `stepAChsEnd`. -/
theorem chaseClearsThenSets : Obligations.ChaseClearsThenSets := by
  intro s d L
  refine ⟨fun hseq => ⟨stepAChs L 0 s, congrArg _ (fgStep_aChs hseq d), storedOnly_stepAChs_zero L s, rfl,
      unchanged_stepAChs L 0 s⟩,
    fun hseq => ⟨stepAChs L 1 s, congrArg _ (fgStep_aChs hseq d), storedOnly_stepAChs_one L s,
      fun _ h => stepAChs_one_seq_of_next h s, ?last, unchanged_stepAChs L 1 s⟩,
    fun hseq => ⟨stepAChsEnd s, congrArg _ (fgStep_aChsEnd hseq d), rfl, stepAChsEnd_animationState_toNat s,
      unchanged_stepAChsEnd s⟩⟩
  case last =>
    rintro rfl
    exact stepAChs_one_seq_last s

/-! ### The period of Sweep (R105) -/

/-- The state `A_SWP_END` leaves, from the latched one (R104). -/
def sweepNext (y : Byte) : Byte := BitVec.ofNat 8 ((sweepState y + 1) % 14)

theorem stepASwpEnd_animationState (s : State) : (stepASwpEnd s).animationState = sweepNext s.animS := rfl

/-- Inside 0..13 the state goes on by one modulo 14. -/
theorem sweepNext_toNat {y : Byte} (hy : y.toNat ≤ 13) : (sweepNext y).toNat = (y.toNat + 1) % 14 := by
  have hstate : sweepState y = y.toNat := if_neg (by omega)
  rw [sweepNext, hstate]
  exact Nat.mod_eq_of_lt (by omega)

/-- After `n` ticks the state has gone on by `n` modulo 14. -/
theorem sweepNext_iterate_toNat {x : Byte} (hx : x.toNat ≤ 13) (n : Nat) :
    (sweepNext^[n] x).toNat = (x.toNat + n) % 14 := by
  induction n with
  | zero => exact (Nat.mod_eq_of_lt (Nat.lt_succ_of_le hx)).symm
  | succ n ih =>
    rw [Function.iterate_succ_apply', sweepNext_toNat (by omega), ih]
    omega

/-- The state comes back exactly after a multiple of 14 ticks. -/
theorem sweepNext_iterate_eq_self_iff {x : Byte} (hx : x.toNat ≤ 13) (n : Nat) :
    sweepNext^[n] x = x ↔ n % 14 = 0 := by
  rw [← BitVec.toNat_inj, sweepNext_iterate_toNat hx]
  omega

/-- Settles O51: the period by `sweepNext_iterate_eq_self_iff`; the index sequence and the two pairs of equal states are
`sweepIndex` at each state. -/
theorem sweepHasPeriodFourteen : Obligations.SweepHasPeriodFourteen := by
  refine ⟨?_, by decide, fun i => ⟨rfl, rfl⟩⟩
  intro s x hx next
  have hnext : next = sweepNext := funext fun y => stepASwpEnd_animationState { s with animS := y }
  rw [hnext]
  refine ⟨(sweepNext_iterate_eq_self_iff hx 14).mpr rfl, fun n hpos hlt heq => ?_⟩
  have hn : n % 14 = 0 := (sweepNext_iterate_eq_self_iff hx n).mp heq
  omega

/-! ### Where bit 7 of an intensity comes from (R102) -/

theorem read_stepFWait (b : Plane) (l : Layer) (s : State) (a : Nat) : (stepFWait b l s).read a = s.read a := by
  unfold stepFWait
  split
  · simp [State.read]
  · rfl

theorem read_stepT0Write (s : State) (a : Nat) : (stepT0Write s).read a = s.read a := by
  rw [stepT0Write_eq]
  rfl

theorem read_stepIWait (s : State) (a : Nat) : (stepIWait s).read a = s.read a := by
  unfold stepIWait
  split <;> rfl

/-- A position whose micro-step may write `MAX_BRIGHT` (R103, R104, R106, R108). -/
def MicroStep.Lights (m : MicroStep) : Prop :=
  (∃ i, m = .aSpk i ∨ m = .aSwp i ∨ m = .aFil i) ∨ ∃ L, m = .aChs L 1

/-- A generator writes 0 or `MAX_BRIGHT` (R100). -/
theorem brightness_eq (s : State) (lit : Bool) :
    brightness s lit = 0x00#8 ∨ brightness s lit = s.cfg.val.maxBright := by
  cases lit with
  | false => exact .inl rfl
  | true => exact .inr rfl

/-- The foreground's turn leaves the store, or writes one voxel: with 0, or with `MAX_BRIGHT` in a generator. -/
theorem fgStep_store (draw : BitVec 2) (s : State) : (∀ a, (fgStep draw s).read a = s.read a) ∨
    ∃ a v, StoredOnly a v s (fgStep draw s) ∧ (v = 0x00#8 ∨ v = s.cfg.val.maxBright ∧ s.seq.Lights) := by
  unfold fgStep
  cases hm : s.seq with
  | fWait b l => exact .inl (read_stepFWait b l s)
  | t0Write => exact .inl (read_stepT0Write s)
  | iWait => exact .inl (read_stepIWait s)
  | aSpk i =>
    exact .inr ⟨_, _, storedOnly_write_goto s _ _ _, (brightness_eq s _).imp_right fun h => ⟨h, .inl ⟨i, .inl rfl⟩⟩⟩
  | aSwp i =>
    exact .inr ⟨_, _, storedOnly_write_goto s _ _ _,
      (brightness_eq s _).imp_right fun h => ⟨h, .inl ⟨i, .inr (.inl rfl)⟩⟩⟩
  | aFil i => exact .inr ⟨_, _, storedOnly_write_goto s _ _ _, .inr ⟨rfl, .inl ⟨i, .inr (.inr rfl)⟩⟩⟩
  | bClr k i => exact .inr ⟨_, _, storedOnly_write_goto s _ _ _, .inl rfl⟩
  | aChs L k =>
    match k with
    | 0 => exact .inr ⟨_, _, storedOnly_stepAChs_zero L s, .inl rfl⟩
    | 1 => exact .inr ⟨_, _, storedOnly_stepAChs_one L s, .inr ⟨rfl, .inr ⟨L, rfl⟩⟩⟩
  | _ => exact .inl fun _ => rfl

/-- An address whose byte changed is the one written, and reads what was written. -/
theorem StoredOnly.read_eq_of_ne {s t : State} {a x : Nat} {v : Byte} (h : StoredOnly a v s t)
    (hne : t.read x ≠ s.read x) : t.read x = v := by
  obtain ⟨hread, hothers⟩ := h
  have hx : x % 64 = a % 64 := by
    by_contra hx
    exact hne (hothers x hx)
  rw [read_congr t hx, hread]

/-- A turn of the foreground sets bit 7 only where a generator writes a `MAX_BRIGHT` of 0xFF. -/
theorem fgStep_bitSeven {draw : BitVec 2} {s : State} {a : Nat} (hset : ((fgStep draw s).read a).getLsbD 7 = true)
    (hclear : (s.read a).getLsbD 7 = false) :
    s.cfg.val.maxBright = 0xFF#8 ∧ (fgStep draw s).read a = 0xFF#8 ∧ s.seq.Lights := by
  have hne : (fgStep draw s).read a ≠ s.read a := fun h => Bool.false_ne_true (hclear.symm.trans (h ▸ hset))
  obtain hkept | ⟨x, v, hstored, hv⟩ := fgStep_store draw s
  · exact absurd (hkept a) hne
  · have hread := hstored.read_eq_of_ne hne
    rw [hread] at hset ⊢
    obtain rfl | ⟨rfl, hlights⟩ := hv
    · cases hset
    · have hmax := maxBright_eq_of_bitSeven s.cfg hset
      exact ⟨hmax, hmax, hlights⟩

/-- No command sets bit 7: the only byte one stores is 0 or a `DATA` operand. -/
theorem commandResult_bitSeven {x : Byte} {s : State} {a : Nat} (hclear : (s.read a).getLsbD 7 = false) :
    ((commandResult (decodeByte x) s).read a).getLsbD 7 = false := by
  cases hi : decodeByte x with
  | data v =>
    rw [read_commandResult_data]
    split
    · exact bitSeven_of_decodeByte_data hi
    · exact hclear
  | nextanim => simp [commandResult]
  | clear => simp [commandResult]
  | _ => exact hclear

/-- No agent but the foreground sets bit 7. -/
theorem turnResult_bitSeven {e : Event} (he : ∀ d, e ≠ .fg d) {s : State} {a : Nat}
    (hclear : (s.read a).getLsbD 7 = false) : ((turnResult e s).read a).getLsbD 7 = false := by
  cases e with
  | fg draw => exact absurd rfl (he draw)
  | rxh =>
    simp only [turnResult]
    split
    · exact commandResult_bitSeven hclear
    · exact hclear
  | tick => exact hclear
  | host v =>
    simp only [turnResult, hostStep]
    split <;> exact hclear
  | btn level => exact hclear

/-- Settles O30: only a turn of the foreground can set bit 7 (`turnResult_bitSeven`), and only in a generator
(`fgStep_bitSeven`). -/
theorem bitSevenComesOnlyFromAnimations : Obligations.BitSevenComesOnlyFromAnimations := by
  intro s t a h hset hclear
  by_cases he : ∃ d, s.nextEvent.1 = .fg d
  · refine ⟨he, ?_⟩
    obtain ⟨d, hd⟩ := he
    obtain ⟨u, hu, rfl⟩ := step_fg h hd
    have hcfg : u.cfg = s.cfg := hu .config (by decide)
    have hseq : u.seq = s.seq := hu .sequencer (by decide)
    rw [← hcfg, ← hseq]
    exact fgStep_bitSeven hset (by rw [hu .store (by decide) a]; exact hclear)
  · obtain rfl : turnResult s.nextEvent.1 s.nextEvent.2 = t := Host.Outcome.next.inj ((step_eq s).symm.trans h)
    have hclear' : (s.nextEvent.2.read a).getLsbD 7 = false := by
      rw [unchanged_nextEvent s .store (by decide) a]
      exact hclear
    exact absurd ((turnResult_bitSeven (not_exists.mp he) hclear').symm.trans hset) Bool.false_ne_true

end Sys2Proof.Machine

/-! ## The command protocol (R110 to R123)

One frame rule for what the commands write and one for what the inputs write; the store's part comes from
`read_commandResult_data` and `read_clearStore`, the stream's from `streamResult_curhome_data`. -/

namespace Sys2Proof.Machine

open Sys2Proof

/-! ### Frame rules -/

/-- Writing the store, the animation's number, the link counter and the cursor leaves every other part, and those of
the four that keep their value. -/
theorem unchanged_command {s : State} {but : List Field} {mem : Memory} {animationId : Fin 4} {usartTimeout : Byte}
    {cursor : BitVec 6} (hmem : .store ∈ but ∨ mem = s.mem) (hid : .animationId ∈ but ∨ animationId = s.animationId)
    (hlink : .usartTimeout ∈ but ∨ usartTimeout = s.usartTimeout) (hcursor : .cursor ∈ but ∨ cursor = s.cursor) :
    Unchanged but s
      { s with mem := mem, animationId := animationId, usartTimeout := usartTimeout, cursor := cursor } := by
  intro f hf
  cases f with
  | store => exact fun a => congrArg (Memory.read · (a % 64)) (hmem.resolve_left hf)
  | animationId => exact hid.resolve_left hf
  | usartTimeout => exact hlink.resolve_left hf
  | cursor => exact hcursor.resolve_left hf
  | _ => exact rfl

/-- Writing the receive register, its flag and the button's level leaves every other part, and those of the three that
keep their value. -/
theorem unchanged_input {s : State} {but : List Field} {rxBuf : Byte} {rxFull btn : Bool}
    (hbuf : .rxBuf ∈ but ∨ rxBuf = s.rxBuf) (hfull : .rxFull ∈ but ∨ rxFull = s.rxFull)
    (hbtn : .button ∈ but ∨ btn = s.btn) :
    Unchanged but s { s with rxBuf := rxBuf, rxFull := rxFull, btn := btn } := by
  intro f hf
  cases f with
  | rxBuf => exact hbuf.resolve_left hf
  | rxFull => exact hfull.resolve_left hf
  | button => exact hbtn.resolve_left hf
  | store => exact fun _ => rfl
  | _ => exact rfl

theorem unchanged_setCursor (s : State) (c : BitVec 6) : Unchanged [.cursor] s { s with cursor := c } :=
  unchanged_command (.inr rfl) (.inr rfl) (.inr rfl) (.inl (by decide))

/-! ### The cursor and the store -/

theorem storedOnly_commandResult_data (v : Byte) (s : State) :
    StoredOnly s.cursor.toNat v s (commandResult (.data v) s) := by
  have hcursor : s.cursor.toNat % 64 = s.cursor.toNat := Nat.mod_eq_of_lt s.cursor.isLt
  refine ⟨?_, fun x hx => ?_⟩
  · rw [read_commandResult_data, if_pos hcursor]
  · rw [read_commandResult_data, if_neg (hcursor ▸ hx)]

/-- Settles O10: `DATA` is one store write at the cursor, and the cursor's own arithmetic wraps. -/
theorem dataWritesTheCursorVoxel : Obligations.DataWritesTheCursorVoxel := fun v s _ =>
  ⟨_, exec_eq _ s, rfl, storedOnly_commandResult_data v s, BitVec.toNat_add _ _,
    unchanged_command (.inl (by decide)) (.inr rfl) (.inl (by decide)) (.inl (by decide))⟩

/-- Settles O11: both commands write the cursor, with a constant or with the operand. -/
theorem cursorCommandsMoveTheCursorOnly : Obligations.CursorCommandsMoveTheCursorOnly :=
  ⟨fun s => ⟨_, exec_eq _ s, rfl, unchanged_setCursor s _⟩, fun c s => ⟨_, exec_eq _ s, rfl, unchanged_setCursor s c⟩,
    fun _ => rfl, rfl, rfl, rfl⟩

/-- Settles O13: the advance and the bulk clear are two independent writes. -/
theorem nextanimAdvancesAndAlwaysClears : Obligations.NextanimAdvancesAndAlwaysClears := fun s =>
  ⟨_, exec_eq _ s, congrArg Fin.val (clearStore_animationId _), read_clearStore _,
    unchanged_command (.inl (by decide)) (.inl (by decide)) (.inr rfl) (.inr rfl)⟩

/-- Settles O14: `CLEAR` is the bulk clear. -/
theorem clearZeroesTheStore : Obligations.ClearZeroesTheStore := fun s =>
  ⟨_, exec_eq _ s, read_clearStore s, unchanged_command (.inl (by decide)) (.inr rfl) (.inr rfl) (.inr rfl)⟩

/-- `CURHOME` changes nothing where the cursor is home. -/
theorem commandResult_curhome_of_home {s : State} (h : s.cursor = 0#6) : commandResult .curhome s = s := by
  rw [commandResult, ← h]

/-- Settles O17: the first part is the cursor's width; 64 bytes from cursor 0 leave what they leave after a
`CURHOME`. -/
theorem sixtyFourDataBytesFillTheStore : Obligations.SixtyFourDataBytesFillTheStore := by
  refine ⟨fun _ _ t _ => t.cursor.isLt, fun vs s hlen _ hhome => ⟨_, execAll_eq _ s, ?_⟩⟩
  have hstream := streamResult_curhome_data s hlen
  rwa [streamResult_cons, commandResult_curhome_of_home hhome] at hstream

/-! ### The link counter -/

theorem commandResult_usartTimeout_of_ne {i : Instr} (hping : i ≠ .ping) (hdata : ∀ v, i ≠ .data v) (s : State) :
    (commandResult i s).usartTimeout = s.usartTimeout := by
  cases i with
  | data v => exact absurd rfl (hdata v)
  | ping => exact absurd rfl hping
  | nextanim => exact clearStore_usartTimeout _
  | clear => exact clearStore_usartTimeout s
  | _ => rfl

/-- Settles O16, by the two commands that write the counter and `commandResult_usartTimeout_of_ne` for the rest. -/
theorem onlyDataAndPingWriteTheLinkCounter : Obligations.OnlyDataAndPingWriteTheLinkCounter := by
  intro i s t h
  obtain rfl : commandResult i s = t := Host.Outcome.next.inj ((exec_eq i s).symm.trans h)
  split
  case isTrue hi =>
    obtain rfl | ⟨v, rfl⟩ := hi
    · rfl
    · rfl
  case isFalse hi =>
    obtain ⟨hping, hdata⟩ := not_or.mp hi
    exact commandResult_usartTimeout_of_ne hping (not_exists.mp hdata) s

/-! ### The reserved rows -/

/-- The four reserved rows do the same: they record the opcode (R120). -/
theorem commandResult_reserved {o : BitVec 6} {i : Instr}
    (hi : i ∈ [Instr.ctrl6to7 o, .ctrl8to15 o, .ctrl16to31 o, .ctrl32to63 o]) (s : State) :
    commandResult i s = s.record (.unknownOpcode o) := by
  simp only [List.mem_cons, List.not_mem_nil, or_false] at hi
  obtain rfl | rfl | rfl | rfl := hi <;> rfl

/-- Settles O15: a recorded event is the whole of a reserved row's effect. -/
theorem reservedOpcodesHaveNoEffect : Obligations.ReservedOpcodesHaveNoEffect := fun _ s i hi _ =>
  ⟨_, (exec_eq i s).trans (congrArg _ (commandResult_reserved hi s)), record_trace s _, unchanged_record s _⟩

/-! ### The inputs -/

theorem hostStep_of_empty {s : State} (h : s.rxFull = false) (v : Byte) :
    hostStep v s = { s with rxBuf := v, rxFull := true } :=
  if_neg (h ▸ Bool.false_ne_true)

theorem hostStep_of_full {s : State} (h : s.rxFull = true) (v : Byte) : hostStep v s = s.record (.rxOverrun v) :=
  if_pos h

/-- Settles O57: the delivery by whether a byte is pending, and the button's step by its definition. -/
theorem inputsWriteTheirRegistersOnly : Obligations.InputsWriteTheirRegistersOnly := by
  refine fun s => ⟨fun v hempty => ?_, fun v hfull => ?_, fun level => ?_⟩
  · exact ⟨_, congrArg Host.Outcome.next (hostStep_of_empty hempty v), rfl, rfl,
      unchanged_input (.inl (by decide)) (.inl (by decide)) (.inr rfl)⟩
  · exact ⟨_, congrArg Host.Outcome.next (hostStep_of_full hfull v), record_trace s _, unchanged_record s _⟩
  · exact ⟨btnStep level s, rfl, rfl, unchanged_input (.inr rfl) (.inr rfl) (.inl (by decide))⟩

end Sys2Proof.Machine

/-! ## The button and power task (R125 to R130) -/

namespace Sys2Proof.Machine

open Sys2Proof

/-! ### The check (R126) -/

theorem buttonCheck_released (retrigger on : Bool) (x : Byte) : buttonCheck retrigger true on x = (255#8, .exit) := rfl

/-- Held and powered on: the floor powers off, by a decrement that reaches it or by the retrigger, and 250 clears. -/
theorem buttonCheck_held_on (retrigger : Bool) (x : Byte) : buttonCheck retrigger false true x = (satDec x,
    if (satDec x).toNat = 0 ∧ (0 < x.toNat ∨ retrigger = true) then .off
    else if (satDec x).toNat = 250 then .clear else .exit) := by
  have hoff : (satDec x == 0#8 && (x != 0#8 || retrigger)) = true ↔
      (satDec x).toNat = 0 ∧ (0 < x.toNat ∨ retrigger = true) := by simp [BitVec.toNat_eq, Nat.pos_iff_ne_zero]
  have hclear : (satDec x == 250#8) = true ↔ (satDec x).toNat = 250 := beq_iff_eq.trans BitVec.toNat_eq
  simp only [buttonCheck, Bool.false_eq_true, if_false, if_true, hoff, hclear, apply_ite (Prod.mk (satDec x))]

/-- Held and powered off: a decrement that reaches 200 powers on. -/
theorem buttonCheck_held_off (retrigger : Bool) (x : Byte) : buttonCheck retrigger false false x = (satDec x,
    if (satDec x).toNat = 200 ∧ 0 < x.toNat then .on else .exit) := by
  have hon : (satDec x == 200#8 && x != 0#8) = true ↔ (satDec x).toNat = 200 ∧ 0 < x.toNat := by
    simp [BitVec.toNat_eq, Nat.pos_iff_ne_zero]
  simp only [buttonCheck, Bool.false_eq_true, if_false, hon, apply_ite (Prod.mk (satDec x))]

/-- A held button counts down whatever the power state. -/
theorem buttonCheck_held_fst (retrigger on : Bool) (x : Byte) :
    (buttonCheck retrigger false on x).1 = satDec x := by
  cases on with
  | false => rw [buttonCheck_held_off]
  | true => rw [buttonCheck_held_on]

/-! ### What a button micro-step writes -/

/-- Writing the power state, the animation's index, the button's counter, `tmp` and `seq` leaves every other part, and
those of the five that keep their value. -/
theorem unchanged_button {s : State} {but : List Field} {on : Bool} {animationId : Fin 4} {buttonTimeout tmp : Byte}
    {m : MicroStep} (hon : .power ∈ but ∨ on = s.on) (hid : .animationId ∈ but ∨ animationId = s.animationId)
    (htimeout : .buttonTimeout ∈ but ∨ buttonTimeout = s.buttonTimeout) (htmp : .tmp ∈ but ∨ tmp = s.tmp)
    (hseq : .sequencer ∈ but ∨ m = s.seq) :
    Unchanged but s { s with on := on, animationId := animationId, buttonTimeout := buttonTimeout, tmp := tmp,
                             seq := m } := by
  intro f hf
  cases f with
  | power => exact hon.resolve_left hf
  | animationId => exact hid.resolve_left hf
  | buttonTimeout => exact htimeout.resolve_left hf
  | tmp => exact htmp.resolve_left hf
  | sequencer => exact hseq.resolve_left hf
  | store => exact fun _ => rfl
  | _ => exact rfl

section

variable (k : Ctx) (s : State)

theorem unchanged_stepBSample : Unchanged [.buttonTimeout, .sequencer] s (stepBSample k s) :=
  unchanged_button (.inr rfl) (.inr rfl) (.inl (by decide)) (.inr rfl) (.inl (by decide))

theorem unchanged_stepBOff : Unchanged [.power, .sequencer] s (stepBOff k s) :=
  unchanged_button (.inl (by decide)) (.inr rfl) (.inr rfl) (.inr rfl) (.inl (by decide))

theorem unchanged_stepBOn : Unchanged [.power, .sequencer] s (stepBOn k s) :=
  unchanged_button (.inl (by decide)) (.inr rfl) (.inr rfl) (.inr rfl) (.inl (by decide))

theorem unchanged_stepBARead : Unchanged [.tmp, .sequencer] s (stepBARead k s) :=
  unchanged_button (.inr rfl) (.inr rfl) (.inr rfl) (.inl (by decide)) (.inl (by decide))

theorem unchanged_stepBAWrite : Unchanged [.animationId, .sequencer] s (stepBAWrite k s) :=
  unchanged_button (.inr rfl) (.inl (by decide)) (.inr rfl) (.inr rfl) (.inl (by decide))

end

/-! ### The turn at each position -/

section

variable {s : State} {k : Ctx}

theorem fgStep_bSample (hseq : s.seq = .bSample k) (draw : BitVec 2) : fgStep draw s = stepBSample k s := by
  unfold fgStep
  rw [hseq]

theorem fgStep_bOff (hseq : s.seq = .bOff k) (draw : BitVec 2) : fgStep draw s = stepBOff k s := by
  unfold fgStep
  rw [hseq]

theorem fgStep_bOn (hseq : s.seq = .bOn k) (draw : BitVec 2) : fgStep draw s = stepBOn k s := by
  unfold fgStep
  rw [hseq]

theorem fgStep_bClr {i : Fin 64} (hseq : s.seq = .bClr k i) (draw : BitVec 2) : fgStep draw s = stepBClr k i s := by
  unfold fgStep
  rw [hseq]

theorem fgStep_bARead (hseq : s.seq = .bARead k) (draw : BitVec 2) : fgStep draw s = stepBARead k s := by
  unfold fgStep
  rw [hseq]

theorem fgStep_bAWrite (hseq : s.seq = .bAWrite k) (draw : BitVec 2) : fgStep draw s = stepBAWrite k s := by
  unfold fgStep
  rw [hseq]

end

/-! ### `B_SAMPLE` -/

section

variable {s : State} {k : Ctx}

/-- A released button resets the counter and ends the check. -/
theorem stepBSample_of_released (hbtn : s.btn = true) :
    (stepBSample k s).buttonTimeout = 255#8 ∧ (stepBSample k s).seq = buttonExit k := by
  simp [stepBSample, hbtn, buttonCheck_released, firstOfAction]

theorem stepBSample_timeout_of_held (hbtn : s.btn = false) :
    (stepBSample k s).buttonTimeout = satDec s.buttonTimeout := by
  simp [stepBSample, hbtn, buttonCheck_held_fst]

theorem stepBSample_seq_of_held_on (hbtn : s.btn = false) (hon : s.on = true) : (stepBSample k s).seq =
    if (satDec s.buttonTimeout).toNat = 0 ∧ (0 < s.buttonTimeout.toNat ∨ s.cfg.val.floorRetrigger = true) then .bOff k
    else if (satDec s.buttonTimeout).toNat = 250 then .bClr k 0 else buttonExit k := by
  rw [stepBSample, goto_seq, hbtn, hon, buttonCheck_held_on]
  simp only [apply_ite (firstOfAction k)]
  simp only [firstOfAction]

theorem stepBSample_seq_of_held_off (hbtn : s.btn = false) (hon : s.on = false) : (stepBSample k s).seq =
    if (satDec s.buttonTimeout).toNat = 200 ∧ 0 < s.buttonTimeout.toNat then .bOn k else buttonExit k := by
  rw [stepBSample, goto_seq, hbtn, hon, buttonCheck_held_off]
  simp only [apply_ite (firstOfAction k)]
  simp only [firstOfAction]

end

/-- Settles O54 by the lemmas on `stepBSample`: released, or held in each power state. -/
theorem buttonCheckDecides : Obligations.ButtonCheckDecides := by
  intro s d k hseq
  refine ⟨stepBSample k s, congrArg _ (fgStep_bSample hseq d), unchanged_stepBSample k s, stepBSample_of_released,
    fun hbtn => ?held⟩
  have htimeout := stepBSample_timeout_of_held (k := k) hbtn
  refine ⟨(congrArg BitVec.toNat htimeout).trans (satDec_toNat _), ?successor⟩
  rw [htimeout]
  cases hon : s.on with
  | true => exact stepBSample_seq_of_held_on hbtn hon
  | false => exact stepBSample_seq_of_held_off hbtn hon

/-! ### The actions (R127) -/

/-- Before the last address the clear goes on to the next one. -/
theorem stepBClr_seq_of_next {i j : Fin 64} (h : j.val = i.val + 1) (k : Ctx) (s : State) :
    (stepBClr k i s).seq = .bClr k j := by
  simp only [stepBClr, goto_seq, nextIn_eq_some.mpr h]

/-- The last address ends the clear. -/
theorem stepBClr_seq_last (k : Ctx) (s : State) : (stepBClr k 63 s).seq = .bARead k := rfl

/-- An animation's index fits in `tmp`. -/
theorem stepBARead_tmp_toNat (k : Ctx) (s : State) : (stepBARead k s).tmp.toNat = s.animationId.val :=
  Nat.mod_eq_of_lt (by omega)

/-- Settles O55 by the rule of each micro-step: the clear is one store write, the rest one register each. -/
theorem buttonActionsWriteWhatTheyName : Obligations.ButtonActionsWriteWhatTheyName := by
  intro s d k
  refine ⟨fun hseq => ⟨stepBOff k s, congrArg _ (fgStep_bOff hseq d), rfl, rfl, unchanged_stepBOff k s⟩,
    fun hseq => ⟨stepBOn k s, congrArg _ (fgStep_bOn hseq d), rfl, rfl, unchanged_stepBOn k s⟩,
    fun i hseq => ⟨stepBClr k i s, congrArg _ (fgStep_bClr hseq d), storedOnly_write_goto s _ _ _,
      fun _ h => stepBClr_seq_of_next h k s, ?last, unchanged_write_goto s _ _ _⟩,
    fun hseq => ⟨stepBARead k s, congrArg _ (fgStep_bARead hseq d), stepBARead_tmp_toNat k s, rfl,
      unchanged_stepBARead k s⟩,
    fun hseq => ⟨stepBAWrite k s, congrArg _ (fgStep_bAWrite hseq d), rfl, rfl, unchanged_stepBAWrite k s⟩⟩
  case last =>
    rintro rfl
    exact stepBClr_seq_last k s

end Sys2Proof.Machine

/-! ## Exceptions (R131) -/

namespace Sys2Proof.Machine

open Sys2Proof

/-- Settles O22: `step_eq` names the state each step answers, and power-up refuses only a configuration that breaks a
constraint of R9. -/
theorem everyStepAnswersANextState : Obligations.EveryStepAnswersANextState := by
  refine ⟨fun s => ⟨_, step_eq s⟩, fun c u => ?powerUp⟩
  by_cases h : c.valid = true
  · exact .inl ⟨_, powerUp_of_valid h u⟩
  · exact .inr (powerUp_of_not_valid h u)

end Sys2Proof.Machine

/-! ## The reset state (R145) -/

namespace Sys2Proof.Machine

open Sys2Proof

/-- The reset memory lists no cell, so every address reads the unlisted value (log 9). -/
@[simp] theorem read_resetWith (c : ValidConfig) (u : Unspecified) (a : Nat) :
    (State.resetWith c u).read a = 0x00#8 := Memory.read_nil (a % 64)

@[simp] theorem plane_resetWith (c : ValidConfig) (u : Unspecified) (l : Layer) (b : Plane) :
    (State.resetWith c u).plane l b = 0x0000#16 := by
  simp only [State.plane, State.resetWith, Fin.getElem_fin, Vector.getElem_replicate]

@[simp] theorem enabled_resetWith (c : ValidConfig) (u : Unspecified) (L : Layer) :
    (State.resetWith c u).enabled L = false := by
  simp only [State.enabled, State.resetWith, Fin.getElem_fin, Vector.getElem_replicate]

/-- Settles O20: the store, the bit-planes and the enables are all zero by their reading rules, and `State.resetWith`
gives each of the other fields its value in R145's table. -/
theorem resetStateAsTabulated : Obligations.ResetStateAsTabulated := by
  intro c u
  exact ⟨read_resetWith c u, plane_resetWith c u, enabled_resetWith c u,
    rfl, rfl, rfl, rfl, rfl, rfl, rfl, rfl, rfl, rfl, rfl, rfl, rfl, rfl, rfl, rfl⟩

end Sys2Proof.Machine

/-! ## The invariants as a step lemma and at reset (R36, R96) -/

namespace Sys2Proof.Machine

/-- Settles O23 by `Invariants.step`: the foreground position by position, the other agents by their write sets. -/
theorem stepKeepsTheInvariants : Obligations.StepKeepsTheInvariants := fun _ _ hs h => hs.step h

/-- Settles O24 by `invariants_resetWith`: nothing is lit, the counter is 0 and the interrupts are open at `LOOP`. -/
theorem resetMeetsTheInvariants : Obligations.ResetMeetsTheInvariants := invariants_resetWith

end Sys2Proof.Machine

/-! ## The encoding, both ways (R53 to R59) -/

namespace Sys2Proof

/-- Two format bits above six operand bits (R54), by value. -/
theorem toNat_append_six (format : BitVec 2) (o : BitVec 6) :
    (format ++ o : Byte).toNat = 64 * format.toNat + o.toNat := by
  rw [BitVec.toNat_append, Nat.shiftLeft_eq, Nat.mul_comm, ← Nat.two_pow_add_eq_or_of_lt o.isLt]

/-- A control byte decodes by its six operand bits. -/
theorem decodeByte_append_control (o : BitVec 6) : decodeByte (0b10#2 ++ o) = decodeControl o := by
  have hval : (0b10#2 ++ o : Byte).toNat = 0x80 + o.toNat := toNat_append_six _ o
  rw [decodeByte_control (by omega) (by omega), hval, Nat.add_sub_cancel_left, BitVec.ofNat_toNat, BitVec.setWidth_eq]

/-- A cursor byte decodes to its six operand bits. -/
theorem decodeByte_append_setcur (c : BitVec 6) : decodeByte (0b11#2 ++ c) = .setcur c := by
  have hval : (0b11#2 ++ c : Byte).toNat = 0xC0 + c.toNat := toNat_append_six _ c
  rw [decodeByte_setcur (by omega), hval, Nat.add_sub_cancel_left, BitVec.ofNat_toNat, BitVec.setWidth_eq]

/-- The byte of a well-formed command decodes to the command: a reserved row's range selects the row. -/
theorem decodeByte_encodeByte {i : Instr} (hwf : i.wf = true) : decodeByte (encodeByte i) = i := by
  cases i with
  | data v => exact decodeByte_data (of_decide_eq_true hwf)
  | setcur c => exact decodeByte_append_setcur c
  | ctrl6to7 o =>
    obtain ⟨hlo, hhi⟩ := of_decide_eq_true hwf
    rw [encodeByte, decodeByte_append_control, decodeControl_reserved hlo, if_pos hhi]
  | ctrl8to15 o =>
    obtain ⟨hlo, hhi⟩ := of_decide_eq_true hwf
    rw [encodeByte, decodeByte_append_control, decodeControl_reserved (by omega), if_neg (by omega), if_pos hhi]
  | ctrl16to31 o =>
    obtain ⟨hlo, hhi⟩ := of_decide_eq_true hwf
    rw [encodeByte, decodeByte_append_control, decodeControl_reserved (by omega), if_neg (by omega),
      if_neg (by omega), if_pos hhi]
  | ctrl32to63 o =>
    have hlo : 32 ≤ o.toNat := of_decide_eq_true hwf
    rw [encodeByte, decodeByte_append_control, decodeControl_reserved (by omega), if_neg (by omega),
      if_neg (by omega), if_neg (by omega)]
  | _ => rfl

/-- Settles O3: a command is one byte, and `decodeByte_encodeByte` reads it back. -/
theorem decodeOfEncodeGivesTheCommand : Obligations.DecodeOfEncodeGivesTheCommand :=
  fun _ rest hwf => congrArg (fun j => Except.ok (j, rest)) (decodeByte_encodeByte hwf)

/-- Each of the 64 control opcodes decodes inside its row's range, and to a command of the same opcode. -/
theorem decodeControl_wf_encode : ∀ o : BitVec 6,
    (decodeControl o).wf = true ∧ encodeByte (decodeControl o) = 0b10#2 ++ o := by decide

/-- A byte decodes to a well-formed command whose byte it is, format by format. -/
theorem decodeByte_wf_encode (x : Byte) : (decodeByte x).wf = true ∧ encodeByte (decodeByte x) = x := by
  by_cases hdata : x.toNat < 0x80
  · rw [decodeByte_data hdata]
    exact ⟨decide_eq_true hdata, rfl⟩
  by_cases hcontrol : x.toNat < 0xC0
  · obtain ⟨hwf, henc⟩ := decodeControl_wf_encode (BitVec.ofNat 6 (x.toNat - 0x80))
    rw [decodeByte_control (by omega) hcontrol, henc]
    refine ⟨hwf, BitVec.eq_of_toNat_eq ?_⟩
    rw [toNat_append_six, BitVec.toNat_ofNat, BitVec.toNat_ofNat]
    omega
  · rw [decodeByte_setcur (by omega)]
    refine ⟨rfl, BitVec.eq_of_toNat_eq ?_⟩
    rw [encodeByte, toNat_append_six, BitVec.toNat_ofNat, BitVec.toNat_ofNat]
    omega

/-- Settles O4: the stream's first byte is `decodeByte_wf_encode`'s, and the rest is untouched. -/
theorem encodeOfDecodeGivesTheBytes : Obligations.EncodeOfDecodeGivesTheBytes := by
  intro bytes rest i h
  cases bytes with
  | nil => cases h
  | cons x xs =>
    cases h
    obtain ⟨hwf, henc⟩ := decodeByte_wf_encode x
    exact ⟨hwf, congrArg (· :: rest) henc⟩

/-- Settles O2: eight closed decodings, and the empty stream. -/
theorem specBytesDecode : Obligations.SpecBytesDecode :=
  ⟨rfl, rfl, rfl, rfl, rfl, rfl, rfl, rfl, rfl⟩

end Sys2Proof

namespace Sys2Proof.Machine

open Sys2Proof

/-- Two format bits above an operand in range are the table's byte. -/
theorem append_ofNat_six (format : BitVec 2) {n : Nat} (hn : n < 64) :
    (format ++ BitVec.ofNat 6 n : Byte) = BitVec.ofNat 8 (64 * format.toNat + n) := by
  apply BitVec.eq_of_toNat_eq
  rw [toNat_append_six, BitVec.toNat_ofNat, BitVec.toNat_ofNat]
  omega

/-- Settles O19: the operand's check decides between the table's byte and the refusal. -/
theorem assemblerRefusesOutOfRangeOperands : Obligations.AssemblerRefusesOutOfRangeOperands := by
  refine ⟨fun v => ?data, fun c => ?setcur, fun o => ?ctrl⟩
  case data =>
    rw [assembleBytes, assemble, asmData]
    split <;> rfl
  case setcur =>
    rw [assembleBytes, assemble, asmSetcur]
    split
    case isTrue hc => exact congrArg (fun x => Except.ok [x]) (append_ofNat_six 0b11#2 hc)
    case isFalse => rfl
  case ctrl =>
    rw [assembleBytes, assemble, asmCtrl]
    split
    case isTrue ho =>
      have hbyte := (decodeControl_wf_encode (BitVec.ofNat 6 o)).2.trans (append_ofNat_six 0b10#2 ho)
      exact congrArg (fun x => Except.ok [x]) hbyte
    case isFalse => rfl

end Sys2Proof.Machine

/-! ## The scheduler's, the counter's and the idle mode's own steps (R70, R77 to R80, R85 to R88) -/

namespace Sys2Proof.Machine

open Sys2Proof

/-! ### The frame of the scheduler and the counter -/

/-- Writing the interrupt mask, the counter, its flag, the observations and `seq` leaves every other part, and those of
the six that keep their value. -/
theorem unchanged_scheduler {s : State} {but : List Field} {ie tov zeroMissed : Bool} {tcnt : Nat}
    {trace : List SilentEvent} {m : MicroStep} (hie : .interruptEnable ∈ but ∨ ie = s.ie)
    (htcnt : .counter ∈ but ∨ tcnt = s.tcnt) (htov : .rollover ∈ but ∨ tov = s.tov)
    (htrace : .trace ∈ but ∨ trace = s.trace) (hmissed : .zeroMissed ∈ but ∨ zeroMissed = s.zeroMissed)
    (hseq : .sequencer ∈ but ∨ m = s.seq) :
    Unchanged but s { s with ie := ie, tcnt := tcnt, tov := tov, trace := trace, zeroMissed := zeroMissed,
                             seq := m } := by
  intro f hf
  cases f with
  | interruptEnable => exact hie.resolve_left hf
  | counter => exact htcnt.resolve_left hf
  | rollover => exact htov.resolve_left hf
  | trace => exact htrace.resolve_left hf
  | zeroMissed => exact hmissed.resolve_left hf
  | sequencer => exact hseq.resolve_left hf
  | store => exact fun _ => rfl
  | _ => exact rfl

theorem Unchanged.refl (but : List Field) (s : State) : Unchanged but s s := by
  intro f _
  cases f with
  | store => exact fun _ => rfl
  | _ => exact rfl

/-- What is unchanged but for some parts is unchanged but for more. -/
theorem Unchanged.mono {but more : List Field} {s t : State} (h : Unchanged but s t) (hsub : but ⊆ more) :
    Unchanged more s t := fun f hf => h f fun hmem => hf (hsub hmem)

section

variable (s : State)

theorem unchanged_goto (m : MicroStep) : Unchanged [.sequencer] s (s.goto m) :=
  unchanged_scheduler (.inr rfl) (.inr rfl) (.inr rfl) (.inr rfl) (.inr rfl) (.inl (by decide))

theorem unchanged_stepFMask : Unchanged [.interruptEnable, .sequencer] s (stepFMask s) :=
  unchanged_scheduler (.inl (by decide)) (.inr rfl) (.inr rfl) (.inr rfl) (.inr rfl) (.inl (by decide))

theorem unchanged_stepFUnmask : Unchanged [.interruptEnable, .sequencer] s (stepFUnmask s) :=
  unchanged_scheduler (.inl (by decide)) (.inr rfl) (.inr rfl) (.inr rfl) (.inr rfl) (.inl (by decide))

theorem unchanged_tickStep : Unchanged [.counter, .rollover, .zeroMissed] s (tickStep s) :=
  unchanged_scheduler (.inr rfl) (.inl (by decide)) (.inl (by decide)) (.inr rfl) (.inl (by decide)) (.inr rfl)

theorem unchanged_stepIOff : Unchanged [.enables, .sequencer] s (stepIOff s) :=
  unchanged_switch (.inr rfl) (.inr rfl) (.inl (by decide)) (.inl (by decide))

theorem unchanged_stepIWait : Unchanged [.rollover, .sequencer] s (stepIWait s) := by
  unfold stepIWait
  split
  · exact unchanged_scheduler (.inr rfl) (.inr rfl) (.inl (by decide)) (.inr rfl) (.inr rfl) (.inl (by decide))
  · exact .refl _ s

end

/-! ### The turn at each position -/

section

variable {s : State} {b : Plane} {l : Layer}

theorem fgStep_loop (hseq : s.seq = .loop) (draw : BitVec 2) : fgStep draw s = stepLoop s := by
  unfold fgStep
  rw [hseq]

theorem fgStep_fMask (hseq : s.seq = .fMask) (draw : BitVec 2) : fgStep draw s = stepFMask s := by
  unfold fgStep
  rw [hseq]

theorem fgStep_fUnmask (hseq : s.seq = .fUnmask) (draw : BitVec 2) : fgStep draw s = stepFUnmask s := by
  unfold fgStep
  rw [hseq]

theorem fgStep_fWait (hseq : s.seq = .fWait b l) (draw : BitVec 2) : fgStep draw s = stepFWait b l s := by
  unfold fgStep
  rw [hseq]

theorem fgStep_iOff (hseq : s.seq = .iOff) (draw : BitVec 2) : fgStep draw s = stepIOff s := by
  unfold fgStep
  rw [hseq]

theorem fgStep_iWait (hseq : s.seq = .iWait) (draw : BitVec 2) : fgStep draw s = stepIWait s := by
  unfold fgStep
  rw [hseq]

end

/-! ### The tick (R70) -/

/-- When a tick sets the flag that R132 asks for. -/
theorem tickStep_zeroMissed (s : State) : (tickStep s).zeroMissed =
    if s.seq = .fWait 0 0 ∧ s.tcnt = 0 then true else s.zeroMissed := by
  have hflag : (s.seq == .fWait 0 0 && s.tcnt == 0) = decide (s.seq = .fWait 0 0 ∧ s.tcnt = 0) := by
    rw [Bool.decide_and]
    rfl
  rw [tickStep, hflag]
  by_cases h : s.seq = .fWait 0 0 ∧ s.tcnt = 0 <;> simp [h]

/-- Settles O32: the tick's three writes. -/
theorem tickCountsAndWraps : Obligations.TickCountsAndWraps := fun s =>
  ⟨tickStep s, rfl, rfl, rfl, tickStep_zeroMissed s, unchanged_tickStep s⟩

/-! ### The slot waits (R78) -/

section

variable {s : State} {b : Plane} {l : Layer}

/-- The first slot's wait passes at `tcnt = 0` alone. -/
theorem waitPasses_first (t : Nat) : waitPasses 0 0 t = true ↔ t = 0 := beq_iff_eq

/-- Every other slot's wait passes from the slot's threshold on. -/
theorem waitPasses_of_ne (h : ¬(b = 0 ∧ l = 0)) (t : Nat) : waitPasses b l t = true ↔ threshold l b ≤ t := by
  rw [waitPasses, if_neg h, decide_eq_true_iff]

theorem stepFWait_of_passes (h : waitPasses b l s.tcnt = true) : stepFWait b l s = (noteLate b l s).goto (.fOff b l) :=
  if_pos h

theorem stepFWait_of_held (h : ¬waitPasses b l s.tcnt = true) : stepFWait b l s = s := if_neg h

/-- What is noted at the first slot's wait: the flag, which starts afresh. -/
theorem noteLate_first (s : State) : noteLate 0 0 s =
    { s with trace := if s.zeroMissed then s.trace ++ [.slotLate 0 0 s.tcnt] else s.trace, zeroMissed := false } := by
  have hlate : slotIsLate s 0 0 = s.zeroMissed := rfl
  cases h : s.zeroMissed <;> simp [noteLate, hlate, h, State.record]

/-- What is noted at every other slot's wait: a counter above the threshold. -/
theorem noteLate_of_ne (h : ¬(b = 0 ∧ l = 0)) (s : State) : noteLate b l s =
    { s with trace := if threshold l b < s.tcnt then s.trace ++ [.slotLate b l s.tcnt] else s.trace } := by
  have hlate : slotIsLate s b l = decide (threshold l b < s.tcnt) := if_neg h
  by_cases hlt : threshold l b < s.tcnt <;> simp [noteLate, hlate, h, hlt, State.record]

theorem unchanged_stepFWait (b : Plane) (l : Layer) (s : State) :
    Unchanged [.trace, .zeroMissed, .sequencer] s (stepFWait b l s) := by
  by_cases hpass : waitPasses b l s.tcnt = true
  · rw [stepFWait_of_passes hpass]
    by_cases hfirst : b = 0 ∧ l = 0
    · obtain ⟨rfl, rfl⟩ := hfirst
      rw [noteLate_first]
      exact unchanged_scheduler (.inr rfl) (.inr rfl) (.inr rfl) (.inl (by decide)) (.inl (by decide))
        (.inl (by decide))
    · rw [noteLate_of_ne hfirst]
      exact unchanged_scheduler (.inr rfl) (.inr rfl) (.inr rfl) (.inl (by decide)) (.inr rfl) (.inl (by decide))
  · rw [stepFWait_of_held hpass]
    exact .refl _ s

end

/-- Settles O34: the guard by `waitPasses_first` and `waitPasses_of_ne`, what a pass writes by the rules of
`noteLate`. -/
theorem slotWaitHoldsUntilItsThreshold : Obligations.SlotWaitHoldsUntilItsThreshold := by
  intro s d b l hseq
  have hturn : agentStep (.fg d) s = .next (stepFWait b l s) := congrArg _ (fgStep_fWait hseq d)
  rw [hturn]
  refine ⟨fun hfirst hzero => ?firstPasses, fun hfirst hne => ?firstHeld, fun hother hle => ?passes,
    fun hother hlt => ?held⟩
  case firstPasses =>
    obtain ⟨rfl, rfl⟩ := hfirst
    rw [stepFWait_of_passes ((waitPasses_first _).mpr hzero), noteLate_first, hzero]
    exact ⟨_, rfl, rfl, rfl, rfl, unchanged_scheduler (.inr rfl) (.inr hzero.symm) (.inr rfl) (.inl (by decide))
      (.inl (by decide)) (.inl (by decide))⟩
  case firstHeld =>
    obtain ⟨rfl, rfl⟩ := hfirst
    rw [stepFWait_of_held (mt (waitPasses_first _).mp hne)]
  case passes =>
    rw [stepFWait_of_passes ((waitPasses_of_ne hother _).mpr hle), noteLate_of_ne hother]
    exact ⟨_, rfl, rfl, rfl, unchanged_scheduler (.inr rfl) (.inr rfl) (.inr rfl) (.inl (by decide)) (.inr rfl)
      (.inl (by decide))⟩
  case held =>
    rw [stepFWait_of_held (mt (waitPasses_of_ne hother _).mp (Nat.not_le.mpr hlt))]

/-! ### The power dispatch and the mask (R77, R79, R80) -/

/-- Settles O35 by the three steps' definitions and frames. -/
theorem powerDispatchAndInterruptMask : Obligations.PowerDispatchAndInterruptMask := fun s d =>
  ⟨fun hseq => ⟨stepLoop s, congrArg _ (fgStep_loop hseq d), rfl, unchanged_goto s _⟩,
    fun hseq => ⟨stepFMask s, congrArg _ (fgStep_fMask hseq d), rfl, rfl, unchanged_stepFMask s⟩,
    fun hseq => ⟨stepFUnmask s, congrArg _ (fgStep_fUnmask hseq d), rfl, rfl, unchanged_stepFUnmask s⟩⟩

/-! ### The idle mode (R85 to R88) -/

/-- `I_OFF` darkens every layer. -/
theorem stepIOff_enabled (s : State) (L : Layer) : (stepIOff s).enabled L = false := by
  rw [stepIOff, enabled_goto]
  simp only [enabled_setEnable]
  fin_cases L <;> rfl

/-- `I_WAIT` that passes. -/
theorem stepIWait_of_set {s : State} (h : s.tov = true) :
    stepIWait s = ({ s with tov := false } : State).goto (.bSample .idle) := if_pos h

/-- `I_WAIT` that holds. -/
theorem stepIWait_of_clear {s : State} (h : s.tov = false) : stepIWait s = s := if_neg (h ▸ Bool.false_ne_true)

/-- Settles O40 by the rules of `stepIOff` and `stepIWait`. -/
theorem idleModeDarkensAndWaitsForRollover : Obligations.IdleModeDarkensAndWaitsForRollover := by
  intro s d
  refine ⟨fun hseq => ⟨stepIOff s, congrArg _ (fgStep_iOff hseq d), stepIOff_enabled s, rfl, unchanged_stepIOff s⟩,
    fun hseq hset => ?passes, fun hseq hclear => ?held⟩
  case passes =>
    have hstep := stepIWait_of_set hset
    exact ⟨stepIWait s, congrArg _ (fgStep_iWait hseq d), congrArg State.tov hstep, congrArg State.seq hstep,
      unchanged_stepIWait s⟩
  case held => exact congrArg Host.Outcome.next ((fgStep_iWait hseq d).trans (stepIWait_of_clear hclear))

/-- With the power off a button check of the idle mode goes back to `LOOP`, or on to `B_ON` (R126). -/
theorem stepBSample_seq_of_off {s : State} (hoff : s.on = false) (k : Ctx) :
    (stepBSample k s).seq = buttonExit k ∨ (stepBSample k s).seq = .bOn k := by
  cases hbtn : s.btn with
  | true => exact .inl (stepBSample_of_released hbtn).2
  | false =>
    rw [stepBSample_seq_of_held_off hbtn hoff]
    exact (ite_eq_or_eq _ _ _).symm

/-- Settles O41: each position's successor and write set. -/
theorem idleModeStaysIdle : Obligations.IdleModeStaysIdle := by
  intro s t d h hoff hmem
  obtain rfl : fgStep d s = t := Host.Outcome.next.inj h
  simp only [List.mem_cons, List.not_mem_nil, or_false] at hmem ⊢
  obtain hseq | hseq | hseq | hseq | hseq | hseq := hmem
  · rw [fgStep_loop hseq, stepLoop, hoff]
    exact ⟨.inr (.inl rfl), (unchanged_goto s _).mono (by decide)⟩
  · rw [fgStep_iOff hseq]
    exact ⟨.inr (.inr (.inl rfl)), (unchanged_stepIOff s).mono (by decide)⟩
  · rw [fgStep_iWait hseq]
    refine ⟨?_, (unchanged_stepIWait s).mono (by decide)⟩
    cases htov : s.tov with
    | true => simp [stepIWait_of_set htov]
    | false => simp [stepIWait_of_clear htov, hseq]
  · rw [fgStep_bSample hseq]
    refine ⟨?_, (unchanged_stepBSample .idle s).mono (by decide)⟩
    obtain hnext | hnext := stepBSample_seq_of_off hoff .idle <;> simp [hnext, buttonExit]
  · rw [fgStep_bOff hseq]
    exact ⟨.inl rfl, (unchanged_stepBOff .idle s).mono (by decide)⟩
  · rw [fgStep_bOn hseq]
    exact ⟨.inl rfl, (unchanged_stepBOn .idle s).mono (by decide)⟩

end Sys2Proof.Machine

/-! ## Sparkle, Sweep and Fill (R103, R104, R108) -/

namespace Sys2Proof.Machine

open Sys2Proof

section

variable {s : State} {i : Fin 64}

theorem fgStep_aSpk (hseq : s.seq = .aSpk i) (draw : BitVec 2) : fgStep draw s = stepASpk i draw s := by
  unfold fgStep
  rw [hseq]

theorem fgStep_aSwp (hseq : s.seq = .aSwp i) (draw : BitVec 2) : fgStep draw s = stepASwp i s := by
  unfold fgStep
  rw [hseq]

theorem fgStep_aSwpEnd (hseq : s.seq = .aSwpEnd) (draw : BitVec 2) : fgStep draw s = stepASwpEnd s := by
  unfold fgStep
  rw [hseq]

theorem fgStep_aFil (hseq : s.seq = .aFil i) (draw : BitVec 2) : fgStep draw s = stepAFil i s := by
  unfold fgStep
  rw [hseq]

end

/-- Before the last address a generator goes on to the next one. -/
theorem stepASpk_seq_of_next {i j : Fin 64} (h : j.val = i.val + 1) (draw : BitVec 2) (s : State) :
    (stepASpk i draw s).seq = .aSpk j := by
  simp only [stepASpk, goto_seq, nextIn_eq_some.mpr h]

theorem stepASwp_seq_of_next {i j : Fin 64} (h : j.val = i.val + 1) (s : State) :
    (stepASwp i s).seq = .aSwp j := by
  simp only [stepASwp, goto_seq, nextIn_eq_some.mpr h]

theorem stepAFil_seq_of_next {i j : Fin 64} (h : j.val = i.val + 1) (s : State) :
    (stepAFil i s).seq = .aFil j := by
  simp only [stepAFil, goto_seq, nextIn_eq_some.mpr h]

/-- Sparkle lights a voxel where the oracle answers 0 (R103). -/
theorem storedOnly_stepASpk (i : Fin 64) (draw : BitVec 2) (s : State) :
    StoredOnly i.val (if draw = 0#2 then s.cfg.val.maxBright else 0x00#8) s (stepASpk i draw s) := by
  have hbyte : brightness s (draw == 0#2) = if draw = 0#2 then s.cfg.val.maxBright else 0x00#8 :=
    if_congr beq_iff_eq rfl rfl
  rw [← hbyte]
  exact storedOnly_write_goto s _ _ _

/-- Settles O49: each is one store write, and the successor by whether the address is the last. -/
theorem sparkleAndFillWriteOneVoxelAStep : Obligations.SparkleAndFillWriteOneVoxelAStep := by
  intro s d i
  refine ⟨fun hseq => ⟨stepASpk i d s, congrArg _ (fgStep_aSpk hseq d), storedOnly_stepASpk i d s,
      fun _ h => stepASpk_seq_of_next h d s, ?sparkleEnd, unchanged_write_goto s _ _ _⟩,
    fun hseq => ⟨stepAFil i s, congrArg _ (fgStep_aFil hseq d), storedOnly_write_goto s _ _ _,
      fun _ h => stepAFil_seq_of_next h s, ?fillEnd, unchanged_write_goto s _ _ _⟩⟩
  case sparkleEnd => rintro rfl; rfl
  case fillEnd => rintro rfl; rfl

/-! ### Which voxels Sweep lights (R104) -/

/-- The table of 95_test_vectors.md 2.7: the column of states 0 to 6, then the row of states 7 to 13. -/
theorem getElem?_sweepTable {state : Nat} (h : state < 14) :
    [0, 1, 2, 3, 2, 1, 0, 0, 1, 2, 3, 2, 1, 0][state]? = some (sweepIndex state) := by
  decide +revert

/-- A voxel is lit iff its column, or in the second half its row, is the table's. -/
theorem sweepLit_iff {state : Nat} (h : state < 14) (i : Fin 64) : sweepLit state i = true ↔
    [0, 1, 2, 3, 2, 1, 0, 0, 1, 2, 3, 2, 1, 0][state]? =
      some (if state ≤ 6 then i.val % 4 else i.val / 4 % 4) := by
  rw [getElem?_sweepTable h, sweepLit, Option.some_inj]
  split
  · rw [decide_eq_true_iff, eq_comm]; rfl
  · rw [decide_eq_true_iff, eq_comm]; rfl

theorem sweepState_eq (x : Byte) : sweepState x = if x.toNat ≤ 13 then x.toNat else 0 := by
  rw [sweepState]
  split <;> split <;> omega

theorem sweepState_lt (x : Byte) : sweepState x < 14 := by
  rw [sweepState_eq]
  split <;> omega

theorem stepASwpEnd_animationState_toNat (s : State) : (stepASwpEnd s).animationState.toNat =
    if s.animS.toNat ≤ 12 then s.animS.toNat + 1 else if s.animS.toNat = 13 then 0 else 1 := by
  have hval : (stepASwpEnd s).animationState.toNat = (sweepState s.animS + 1) % 14 := Nat.mod_eq_of_lt (by omega)
  rw [hval, sweepState_eq]
  repeat' split
  all_goals omega

theorem unchanged_stepASwpEnd (s : State) : Unchanged [.animationState, .sequencer] s (stepASwpEnd s) :=
  unchanged_animation (.inr rfl) (.inl (by decide)) (.inr rfl) (.inl (by decide))

/-- Settles O50: one store write by `sweepLit_iff`, and the next state by `stepASwpEnd_animationState_toNat`. -/
theorem sweepWritesColumnsThenRows : Obligations.SweepWritesColumnsThenRows := by
  intro s d i
  refine ⟨fun hseq => ⟨stepASwp i s, sweepState s.animS, congrArg _ (fgStep_aSwp hseq d), sweepState_eq _, ?stored,
      fun _ h => stepASwp_seq_of_next h s, ?last, unchanged_write_goto s _ _ _⟩,
    fun hseq => ⟨stepASwpEnd s, congrArg _ (fgStep_aSwpEnd hseq d), rfl, stepASwpEnd_animationState_toNat s,
      unchanged_stepASwpEnd s⟩⟩
  case stored =>
    simp only [← sweepLit_iff (sweepState_lt s.animS)]
    exact storedOnly_write_goto s _ _ _
  case last => rintro rfl; rfl

end Sys2Proof.Machine

/-! ## What a step may write (R17 to R34)

The write set of each micro-step and of each agent, said once; the statements about who writes a part of the state look
the part up in it. -/

namespace Sys2Proof.Machine

open Sys2Proof

theorem agree_trans {f : Field} {s t u : State} (hst : State.agree f s t) (htu : State.agree f t u) :
    State.agree f s u := by
  cases f with
  | store => exact fun a => (htu a).trans (hst a)
  | _ => exact Eq.trans htu hst

/-! ### The receiver's and the handler's turns (R110, R111) -/

theorem rxhEnabled_iff (s : State) : rxhEnabled s = true ↔ s.ie = true ∧ s.rxFull = true := by
  rw [rxhEnabled, Bool.and_eq_true]

theorem turnResult_rxh_of_enabled {s : State} (hie : s.ie = true) (hfull : s.rxFull = true) :
    turnResult .rxh s = commandResult (decodeByte s.rxBuf) { s with rxFull := false } :=
  if_pos ((rxhEnabled_iff s).mpr ⟨hie, hfull⟩)

theorem turnResult_rxh_of_disabled {s : State} (h : ¬(s.ie = true ∧ s.rxFull = true)) : turnResult .rxh s = s :=
  if_neg (mt (rxhEnabled_iff s).mp h)

/-- A command leaves the byte consumed. -/
theorem commandResult_rxFull (i : Instr) (s : State) : (commandResult i { s with rxFull := false }).rxFull = false :=
  (commandResult_frame i _).rxFull

theorem hostStep_rxFull (v : Byte) (s : State) : (hostStep v s).rxFull = true := by
  cases h : s.rxFull with
  | true => rw [hostStep_of_full h, record_rxFull, h]
  | false => rw [hostStep_of_empty h]

theorem unchanged_hostStep (v : Byte) (s : State) : Unchanged [.rxBuf, .rxFull, .trace] s (hostStep v s) := by
  cases h : s.rxFull with
  | true =>
    rw [hostStep_of_full h]
    exact (unchanged_record s _).mono (by decide)
  | false =>
    rw [hostStep_of_empty h]
    exact unchanged_input (.inl (by decide)) (.inl (by decide)) (.inr rfl)

theorem unchanged_btnStep (level : Bool) (s : State) : Unchanged [.button] s (btnStep level s) :=
  unchanged_input (.inr rfl) (.inr rfl) (.inl (by decide))

/-! ### The write sets -/

/-- What the micro-step at a position may write. -/
def MicroStep.writes : MicroStep → List Field
  | .loop => [.sequencer]
  | .fMask => [.interruptEnable, .sequencer]
  | .fShift _ _ => [.shiftRegister, .sequencer]
  | .fWait _ _ => [.trace, .zeroMissed, .sequencer]
  | .fOff _ _ => [.enables, .sequencer]
  | .fLatch _ _ => [.outputLatch, .sequencer]
  | .fOn _ _ => [.enables, .sequencer]
  | .fUnmask => [.interruptEnable, .sequencer]
  | .t0Read => [.tmp, .sequencer]
  | .t0Write => [.usartTimeout, .sequencer]
  | .t1Gate => [.sequencer]
  | .aBegin => [.animS, .sequencer]
  | .aSpk _ => [.store, .sequencer]
  | .aSwp _ => [.store, .sequencer]
  | .aSwpEnd => [.animationState, .sequencer]
  | .aChs _ _ => [.store, .sequencer]
  | .aChsEnd => [.animationState, .sequencer]
  | .aFil _ => [.store, .sequencer]
  | .bSample _ => [.buttonTimeout, .sequencer]
  | .bOff _ => [.power, .sequencer]
  | .bOn _ => [.power, .sequencer]
  | .bClr _ _ => [.store, .sequencer]
  | .bARead _ => [.tmp, .sequencer]
  | .bAWrite _ => [.animationId, .sequencer]
  | .rb _ _ => [.planes, .sequencer]
  | .iOff => [.enables, .sequencer]
  | .iWait => [.rollover, .sequencer]

/-- What the handler's turn may write (R34, R111). -/
def handlerWrites : List Field := [.store, .power, .animationId, .usartTimeout, .cursor, .rxFull, .trace]

/-- What a turn of an agent may write, the foreground at position `m` (R11, R34). -/
def turnWrites (e : Event) (m : MicroStep) : List Field :=
  match e with
  | .fg _ => m.writes
  | .rxh => handlerWrites
  | .tick => [.counter, .rollover, .zeroMissed]
  | .host _ => [.rxBuf, .rxFull, .trace]
  | .btn _ => [.button]

section

variable (s : State)

/-- The foreground's turn writes what its position names and nothing else. -/
theorem unchanged_fgStep (draw : BitVec 2) : Unchanged s.seq.writes s (fgStep draw s) := by
  unfold fgStep
  cases s.seq with
  | loop => exact unchanged_goto s _
  | fMask => exact unchanged_stepFMask s
  | fShift b l => exact unchanged_stepFShift b l s
  | fWait b l => exact unchanged_stepFWait b l s
  | fOff b l => exact unchanged_stepFOff b l s
  | fLatch b l => exact unchanged_stepFLatch b l s
  | fOn b l => exact unchanged_stepFOn b l s
  | fUnmask => exact unchanged_stepFUnmask s
  | t0Read => exact unchanged_stepT0Read s
  | t0Write => exact unchanged_stepT0Write s
  | t1Gate => exact unchanged_stepT1Gate s
  | aBegin => exact unchanged_stepABegin s
  | aSpk i => exact unchanged_write_goto s _ _ _
  | aSwp i => exact unchanged_write_goto s _ _ _
  | aSwpEnd => exact unchanged_stepASwpEnd s
  | aChs L k => exact unchanged_stepAChs L k s
  | aChsEnd => exact unchanged_stepAChsEnd s
  | aFil i => exact unchanged_write_goto s _ _ _
  | bSample k => exact unchanged_stepBSample k s
  | bOff k => exact unchanged_stepBOff k s
  | bOn k => exact unchanged_stepBOn k s
  | bClr k i => exact unchanged_write_goto s _ _ _
  | bARead k => exact unchanged_stepBARead k s
  | bAWrite k => exact unchanged_stepBAWrite k s
  | rb l p => exact unchanged_stepRb l p s
  | iOff => exact unchanged_stepIOff s
  | iWait => exact unchanged_stepIWait s

/-- A command on the state with the byte consumed writes the handler's write set at most. -/
theorem unchanged_handler (i : Instr) :
    Unchanged handlerWrites s (commandResult i { s with rxFull := false }) := by
  have frame := commandResult_frame i { s with rxFull := false }
  intro f hf
  cases f with
  | config => exact frame.cfg
  | planes => exact frame.pl
  | shiftRegister => exact frame.sr
  | outputLatch => exact frame.out
  | enables => exact frame.en
  | sequencer => exact frame.seq
  | interruptEnable => exact frame.ie
  | counter => exact frame.tcnt
  | rollover => exact frame.tov
  | animationState => exact frame.animationState
  | buttonTimeout => exact frame.buttonTimeout
  | rxBuf => exact frame.rxBuf
  | tmp => exact frame.tmp
  | animS => exact frame.animS
  | button => exact frame.btn
  | zeroMissed => exact frame.zeroMissed
  | agenda => exact frame.agenda
  | freeIdx => exact frame.freeIdx
  | _ => exact absurd (by decide) hf

/-- A turn of any agent writes what the agent's write set names and nothing else. -/
theorem unchanged_turnResult (e : Event) : Unchanged (turnWrites e s.seq) s (turnResult e s) := by
  cases e with
  | fg draw => exact unchanged_fgStep s draw
  | rxh =>
    simp only [turnResult]
    split
    · exact unchanged_handler s _
    · exact .refl _ s
  | tick => exact unchanged_tickStep s
  | host v => exact unchanged_hostStep v s
  | btn level => exact unchanged_btnStep level s

end

/-- A step is its agent's turn on the state without the event taken. -/
theorem step_turn {s t : State} (h : step s = .next t) :
    ∃ u, Unchanged [.agenda, .freeIdx] s u ∧ turnResult s.nextEvent.1 u = t :=
  ⟨_, unchanged_nextEvent s, Host.Outcome.next.inj ((step_eq s).symm.trans h)⟩

/-- A part that a step changes, but for the events to come, is in the write set of the step's agent. -/
theorem mem_turnWrites_of_changed {s t : State} (h : step s = .next t) {f : Field}
    (hf : f ∉ [Field.agenda, .freeIdx]) (hne : ¬State.agree f s t) : f ∈ turnWrites s.nextEvent.1 s.seq := by
  obtain ⟨u, hu, rfl⟩ := step_turn h
  rw [← hu .sequencer (by decide)]
  by_contra hmem
  exact hne (agree_trans (hu f hf) (unchanged_turnResult u _ f hmem))

/-- Settles O9: the handler's write set. -/
theorem handlerLeavesTheForegroundAlone : Obligations.HandlerLeavesTheForegroundAlone := by
  intro s t h
  obtain rfl := Host.Outcome.next.inj ((agentStep_eq .rxh s).symm.trans h)
  exact unchanged_turnResult s .rxh

/-! ### Who writes a part -/

/-- The table read the other way: the positions whose micro-step may write a part. -/
def Field.Writer (f : Field) (m : MicroStep) : Prop :=
  match f with
  | .store => (∃ i, m = .aSpk i ∨ m = .aSwp i ∨ m = .aFil i ∨ ∃ k, m = .bClr k i) ∨ ∃ L k, m = .aChs L k
  | .planes => ∃ l p, m = .rb l p
  | .shiftRegister => ∃ b l, m = .fShift b l
  | .outputLatch => ∃ b l, m = .fLatch b l
  | .enables => m = .iOff ∨ ∃ b l, m = .fOff b l ∨ m = .fOn b l
  | .sequencer => True
  | .interruptEnable => m = .fMask ∨ m = .fUnmask
  | .rollover => m = .iWait
  | .power => ∃ k, m = .bOff k ∨ m = .bOn k
  | .animationId => ∃ k, m = .bAWrite k
  | .animationState => m = .aSwpEnd ∨ m = .aChsEnd
  | .usartTimeout => m = .t0Write
  | .buttonTimeout => ∃ k, m = .bSample k
  | .tmp => m = .t0Read ∨ ∃ k, m = .bARead k
  | .animS => m = .aBegin
  | .trace => ∃ b l, m = .fWait b l
  | .zeroMissed => ∃ b l, m = .fWait b l
  | _ => False

theorem Field.writer_of_mem {f : Field} {m : MicroStep} (h : f ∈ m.writes) : f.Writer m := by
  cases m
  all_goals
    simp only [MicroStep.writes, List.mem_cons, List.not_mem_nil, or_false] at h
    obtain rfl | rfl | rfl := h <;> simp [Field.Writer]

/-- What the counter, the host and the button may write, and the events to come. -/
def inputWrites : List Field :=
  [.counter, .rollover, .zeroMissed, .rxBuf, .rxFull, .trace, .button, .agenda, .freeIdx]

theorem turnWrites_subset_inputWrites {e : Event} (hfg : ∀ d, e ≠ .fg d) (hrxh : e ≠ .rxh) (m : MicroStep) :
    turnWrites e m ⊆ inputWrites := by
  cases e with
  | fg d => exact absurd rfl (hfg d)
  | rxh => exact absurd rfl hrxh
  | _ => simp [turnWrites, inputWrites]

section

variable {s t : State} {f : Field}

/-- A part outside the inputs' write sets changes in the handler's turn or in the foreground's, at a position that
writes it. -/
theorem rxh_or_fg_of_changed (h : step s = .next t) (hf : f ∉ inputWrites) (hne : ¬State.agree f s t) :
    s.nextEvent.1 = .rxh ∨ (∃ d, s.nextEvent.1 = .fg d) ∧ f.Writer s.seq := by
  have hevents : [Field.agenda, .freeIdx] ⊆ inputWrites := by decide
  have hmem := mem_turnWrites_of_changed h (fun hmem => hf (hevents hmem)) hne
  by_cases hrxh : s.nextEvent.1 = .rxh
  · exact .inl hrxh
  by_cases hfg : ∃ d, s.nextEvent.1 = .fg d
  · obtain ⟨d, hd⟩ := hfg
    rw [hd] at hmem
    exact .inr ⟨⟨d, hd⟩, Field.writer_of_mem hmem⟩
  · exact absurd (turnWrites_subset_inputWrites (not_exists.mp hfg) hrxh _ hmem) hf

/-- A part that no other agent writes changes in the foreground's turn, at a position that writes it. -/
theorem fg_of_changed (h : step s = .next t) (hf : f ∉ inputWrites ++ handlerWrites) (hne : ¬State.agree f s t) :
    (∃ d, s.nextEvent.1 = .fg d) ∧ f.Writer s.seq := by
  obtain ⟨hinput, hhandler⟩ := not_or.mp (mt List.mem_append.mpr hf)
  refine (rxh_or_fg_of_changed h hinput hne).resolve_left fun he => hhandler ?_
  have hevents : [Field.agenda, .freeIdx] ⊆ inputWrites := by decide
  have hmem := mem_turnWrites_of_changed h (fun hmem => hinput (hevents hmem)) hne
  rwa [he] at hmem

/-- The counter changes in a tick. -/
theorem tick_of_changed (h : step s = .next t) (hne : t.tcnt ≠ s.tcnt) : s.nextEvent.1 = .tick := by
  have hmem := mem_turnWrites_of_changed h (f := .counter) (by decide) hne
  cases he : s.nextEvent.1 with
  | tick => rfl
  | fg d =>
    rw [he] at hmem
    exact (Field.writer_of_mem (m := s.seq) hmem).elim
  | _ => simp [he, turnWrites, handlerWrites] at hmem

/-- The rollover flag changes in a tick, or at `I_WAIT`. -/
theorem tick_or_iWait_of_changed (h : step s = .next t) (hne : t.tov ≠ s.tov) :
    s.nextEvent.1 = .tick ∨ (∃ d, s.nextEvent.1 = .fg d) ∧ s.seq = .iWait := by
  have hmem := mem_turnWrites_of_changed h (f := .rollover) (by decide) hne
  cases he : s.nextEvent.1 with
  | tick => exact .inl rfl
  | fg d =>
    rw [he] at hmem
    exact .inr ⟨⟨d, rfl⟩, Field.writer_of_mem (m := s.seq) hmem⟩
  | _ => simp [he, turnWrites, handlerWrites] at hmem

/-- The receive register takes the byte that arrives while none is pending (R110). -/
theorem host_of_rxBuf_changed (h : step s = .next t) (hne : t.rxBuf ≠ s.rxBuf) :
    s.nextEvent.1 = .host t.rxBuf ∧ s.rxFull = false := by
  have hmem := mem_turnWrites_of_changed h (f := .rxBuf) (by decide) hne
  obtain ⟨u, hu, rfl⟩ := step_turn h
  have hfull : u.rxFull = s.rxFull := hu .rxFull (by decide)
  have hbuf : u.rxBuf = s.rxBuf := hu .rxBuf (by decide)
  cases he : s.nextEvent.1 with
  | host v =>
    simp only [he, turnResult] at hne ⊢
    cases hs : s.rxFull with
    | true => simp [hostStep_of_full (hfull.trans hs), hbuf] at hne
    | false => simp [hostStep_of_empty (hfull.trans hs)]
  | fg d =>
    rw [he] at hmem
    exact (Field.writer_of_mem (m := s.seq) hmem).elim
  | _ => simp [he, turnWrites, handlerWrites] at hmem

/-- The pending bit is set by an arriving byte and cleared by the handler. -/
theorem input_of_rxFull_changed (h : step s = .next t) (hne : t.rxFull ≠ s.rxFull) :
    if t.rxFull = true then ∃ v, s.nextEvent.1 = .host v else s.nextEvent.1 = .rxh := by
  have hmem := mem_turnWrites_of_changed h (f := .rxFull) (by decide) hne
  obtain ⟨u, hu, rfl⟩ := step_turn h
  cases he : s.nextEvent.1 with
  | host v => simp [turnResult, hostStep_rxFull]
  | rxh =>
    by_cases henabled : u.ie = true ∧ u.rxFull = true
    · simp [turnResult_rxh_of_enabled henabled.1 henabled.2, commandResult_rxFull]
    · rw [he, turnResult_rxh_of_disabled henabled] at hne
      exact absurd (hu .rxFull (by decide)) hne
  | fg d =>
    rw [he] at hmem
    exact (Field.writer_of_mem (m := s.seq) hmem).elim
  | _ => simp [he, turnWrites] at hmem

/-- The button's level is what the button sets it to (R125). -/
theorem btn_of_changed (h : step s = .next t) (hne : t.btn ≠ s.btn) : s.nextEvent.1 = .btn t.btn := by
  have hmem := mem_turnWrites_of_changed h (f := .button) (by decide) hne
  obtain ⟨u, -, rfl⟩ := step_turn h
  cases he : s.nextEvent.1 with
  | btn level => rfl
  | fg d =>
    rw [he] at hmem
    exact (Field.writer_of_mem (m := s.seq) hmem).elim
  | _ => simp [he, turnWrites, handlerWrites] at hmem

end

/-- Settles O28: the writers of each register. -/
theorem onlyNamedStepsWriteTheDatapath : Obligations.OnlyNamedStepsWriteTheDatapath := fun _ _ h =>
  ⟨fg_of_changed h (f := .planes) (by decide), fg_of_changed h (f := .shiftRegister) (by decide),
    fg_of_changed h (f := .outputLatch) (by decide), fg_of_changed h (f := .enables) (by decide)⟩

/-! ### Which voxel a micro-step writes -/

/-- An address whose byte changed is the one written. -/
theorem StoredOnly.address_eq_of_ne {s t : State} {a x : Nat} {v : Byte} (h : StoredOnly a v s t)
    (hne : t.read x ≠ s.read x) : x % 64 = a % 64 := by
  by_contra hx
  exact hne (h.2 x hx)

/-- Sparkle, Sweep, Fill and the button's clear write the label's own voxel. -/
theorem storedOnly_fgStep_of_label {s : State} {i : Fin 64} (draw : BitVec 2)
    (hseq : s.seq = .aSpk i ∨ s.seq = .aSwp i ∨ s.seq = .aFil i ∨ ∃ k, s.seq = .bClr k i) :
    ∃ v, StoredOnly i.val v s (fgStep draw s) := by
  obtain hseq | hseq | hseq | ⟨k, hseq⟩ := hseq
  · rw [fgStep_aSpk hseq]
    exact ⟨_, storedOnly_stepASpk i draw s⟩
  · rw [fgStep_aSwp hseq]
    exact ⟨_, storedOnly_write_goto s _ _ _⟩
  · rw [fgStep_aFil hseq]
    exact ⟨_, storedOnly_write_goto s _ _ _⟩
  · rw [fgStep_bClr hseq]
    exact ⟨_, storedOnly_write_goto s _ _ _⟩

/-- Chase writes in the label's own layer. -/
theorem storedOnly_fgStep_of_chase {s : State} {L : Layer} {k : Fin 2} (draw : BitVec 2) (hseq : s.seq = .aChs L k) :
    ∃ p < 16, ∃ v, StoredOnly (16 * L.val + p) v s (fgStep draw s) := by
  rw [fgStep_aChs hseq]
  match k with
  | 0 => exact ⟨_, Nat.mod_lt _ (by decide), _, storedOnly_stepAChs_zero L s⟩
  | 1 => exact ⟨_, Nat.mod_lt _ (by decide), _, storedOnly_stepAChs_one L s⟩

/-- The foreground changes a voxel at a label of that voxel, or at a label of Chase in its layer. -/
theorem fgStep_stored_address {draw : BitVec 2} {s : State} {a : Nat} (hne : (fgStep draw s).read a ≠ s.read a) :
    (∃ i : Fin 64, i.val = a % 64 ∧ (s.seq = .aSpk i ∨ s.seq = .aSwp i ∨ s.seq = .aFil i ∨ ∃ k, s.seq = .bClr k i)) ∨
      ∃ L k, s.seq = .aChs L k ∧ L.val = a % 64 / 16 := by
  have hmem : .store ∈ s.seq.writes := by
    by_contra hmem
    exact hne (unchanged_fgStep s draw .store hmem a)
  obtain ⟨i, hseq⟩ | ⟨L, k, hseq⟩ := Field.writer_of_mem hmem
  · obtain ⟨v, hstored⟩ := storedOnly_fgStep_of_label draw hseq
    have haddr := hstored.address_eq_of_ne hne
    exact .inl ⟨i, by omega, hseq⟩
  · obtain ⟨p, hp, v, hstored⟩ := storedOnly_fgStep_of_chase draw hseq
    have haddr := hstored.address_eq_of_ne hne
    exact .inr ⟨L, k, hseq, by omega⟩

/-- A voxel changes in the handler's turn, or at a micro-step that writes that voxel. -/
theorem store_writer_of_changed {s t : State} (h : step s = .next t) {a : Nat} (hne : t.read a ≠ s.read a) :
    s.nextEvent.1 = .rxh ∨ (∃ d, s.nextEvent.1 = .fg d) ∧
      ((∃ i : Fin 64, i.val = a % 64 ∧ (s.seq = .aSpk i ∨ s.seq = .aSwp i ∨ s.seq = .aFil i ∨ ∃ k, s.seq = .bClr k i)) ∨
        ∃ L k, s.seq = .aChs L k ∧ L.val = a % 64 / 16) := by
  refine (rxh_or_fg_of_changed h (f := .store) (by decide) fun hsame => hne (hsame a)).imp_right fun ⟨⟨d, hd⟩, _⟩ => ?_
  obtain ⟨u, hu, rfl⟩ := step_fg h hd
  rw [← hu .store (by decide) a] at hne
  rw [← hu .sequencer (by decide)]
  exact ⟨⟨d, hd⟩, fgStep_stored_address hne⟩

/-- Settles O29: the writers of each part, and the configuration is no agent's. -/
theorem onlyNamedStepsWriteTheControlVariables : Obligations.OnlyNamedStepsWriteTheControlVariables := fun _ _ h =>
  ⟨step_cfg h, fun _ => store_writer_of_changed h,
    fun hne => (fg_of_changed h (f := .sequencer) (by decide) hne).1,
    fg_of_changed h (f := .interruptEnable) (by decide), tick_of_changed h, tick_or_iWait_of_changed h,
    rxh_or_fg_of_changed h (f := .power) (by decide), rxh_or_fg_of_changed h (f := .animationId) (by decide),
    fg_of_changed h (f := .animationState) (by decide), rxh_or_fg_of_changed h (f := .usartTimeout) (by decide),
    fg_of_changed h (f := .buttonTimeout) (by decide),
    fun hne => (rxh_or_fg_of_changed h (f := .cursor) (by decide) hne).resolve_right And.right,
    host_of_rxBuf_changed h, input_of_rxFull_changed h, fg_of_changed h (f := .tmp) (by decide),
    fg_of_changed h (f := .animS) (by decide), btn_of_changed h⟩

end Sys2Proof.Machine

/-! ## Where a turn of the foreground leads (R74, R76) -/

namespace Sys2Proof.Machine

open Sys2Proof

/-- A turn of the foreground at the first position may lead to the second. A wait that holds leads nowhere. -/
inductive Follows : MicroStep → MicroStep → Prop where
  | loopOn : Follows .loop .fMask
  | loopOff : Follows .loop .iOff
  | fMask : Follows .fMask (.fShift 0 0)
  | fShift (b : Plane) (l : Layer) : Follows (.fShift b l) (.fWait b l)
  | fWait (b : Plane) (l : Layer) : Follows (.fWait b l) (.fOff b l)
  | fOff (b : Plane) (l : Layer) : Follows (.fOff b l) (.fLatch b l)
  | fLatch (b : Plane) (l : Layer) : Follows (.fLatch b l) (.fOn b l)
  | fOn (b : Plane) (l : Layer) : Follows (.fOn b l) (afterOn b l)
  | fUnmask : Follows .fUnmask (.fShift 1 0)
  | t0Read : Follows .t0Read .t0Write
  | t0Write : Follows .t0Write (.rb 0 0)
  | t1Pass : Follows .t1Gate .aBegin
  | t1Skip : Follows .t1Gate (.rb 1 0)
  | aBegin (id : Fin 4) : Follows .aBegin (firstOfAnimation id)
  | aSpk {i j : Fin 64} (h : nextIn i = some j) : Follows (.aSpk i) (.aSpk j)
  | aSpkLast {i : Fin 64} (h : nextIn i = none) : Follows (.aSpk i) (.rb 1 0)
  | aSwp {i j : Fin 64} (h : nextIn i = some j) : Follows (.aSwp i) (.aSwp j)
  | aSwpLast {i : Fin 64} (h : nextIn i = none) : Follows (.aSwp i) .aSwpEnd
  | aSwpEnd : Follows .aSwpEnd (.rb 1 0)
  | aChsClear (L : Layer) : Follows (.aChs L 0) (.aChs L 1)
  | aChsSet {L M : Layer} (h : nextIn L = some M) : Follows (.aChs L 1) (.aChs M 0)
  | aChsLast {L : Layer} (h : nextIn L = none) : Follows (.aChs L 1) .aChsEnd
  | aChsEnd : Follows .aChsEnd (.rb 1 0)
  | aFil {i j : Fin 64} (h : nextIn i = some j) : Follows (.aFil i) (.aFil j)
  | aFilLast {i : Fin 64} (h : nextIn i = none) : Follows (.aFil i) (.rb 1 0)
  | bSample (k : Ctx) (a : ButtonAction) : Follows (.bSample k) (firstOfAction k a)
  | bOff (k : Ctx) : Follows (.bOff k) (buttonExit k)
  | bOn (k : Ctx) : Follows (.bOn k) (buttonExit k)
  | bClr {i j : Fin 64} (k : Ctx) (h : nextIn i = some j) : Follows (.bClr k i) (.bClr k j)
  | bClrLast {i : Fin 64} (k : Ctx) (h : nextIn i = none) : Follows (.bClr k i) (.bARead k)
  | bARead (k : Ctx) : Follows (.bARead k) (.bAWrite k)
  | bAWrite (k : Ctx) : Follows (.bAWrite k) (buttonExit k)
  | rb {p q : Pos} (l : Layer) (h : nextIn p = some q) : Follows (.rb l p) (.rb l q)
  | rbLast {p : Pos} (l : Layer) (h : nextIn p = none) : Follows (.rb l p) (afterRebuild l)
  | iOff : Follows .iOff .iWait
  | iWait : Follows .iWait (.bSample .idle)

section

variable {s : State}

/-- Where the foreground has no step its turn changes nothing (R13). -/
theorem fgStep_of_not_ready (h : fgReady s = false) (draw : BitVec 2) : fgStep draw s = s := by
  cases hseq : s.seq with
  | fWait b l =>
    rw [fgReady, hseq] at h
    rw [fgStep_fWait hseq, stepFWait_of_held (Bool.eq_false_iff.mp h)]
  | iWait =>
    rw [fgReady, hseq] at h
    rw [fgStep_iWait hseq, stepIWait_of_clear h]
  | _ => simp [fgReady, hseq] at h

/-- Where the foreground has a step it leads to a position that follows. -/
theorem follows_fgStep (h : fgReady s = true) (draw : BitVec 2) : Follows s.seq (fgStep draw s).seq := by
  cases hseq : s.seq with
  | loop =>
    rw [fgStep_loop hseq, stepLoop, goto_seq]
    split
    · exact .loopOn
    · exact .loopOff
  | fWait b l =>
    rw [fgReady, hseq] at h
    rw [fgStep_fWait hseq, stepFWait_of_passes h]
    exact .fWait b l
  | t0Write =>
    rw [fgStep_t0Write hseq]
    exact .t0Write
  | t1Gate =>
    rw [fgStep_t1Gate hseq, stepT1Gate, goto_seq]
    split
    · exact .t1Pass
    · exact .t1Skip
  | aBegin =>
    rw [fgStep_aBegin hseq]
    exact .aBegin _
  | aSpk i =>
    rw [fgStep_aSpk hseq, stepASpk, goto_seq]
    split
    · exact .aSpk ‹_›
    · exact .aSpkLast ‹_›
  | aSwp i =>
    rw [fgStep_aSwp hseq, stepASwp, goto_seq]
    split
    · exact .aSwp ‹_›
    · exact .aSwpLast ‹_›
  | aChs L k =>
    rw [fgStep_aChs hseq]
    match k with
    | 0 => exact .aChsClear L
    | 1 =>
      cases hnext : nextIn L with
      | none => simpa [stepAChs, hnext] using Follows.aChsLast hnext
      | some M => simpa [stepAChs, hnext] using Follows.aChsSet hnext
  | aFil i =>
    rw [fgStep_aFil hseq, stepAFil, goto_seq]
    split
    · exact .aFil ‹_›
    · exact .aFilLast ‹_›
  | bSample k =>
    rw [fgStep_bSample hseq]
    exact .bSample k _
  | bClr k i =>
    rw [fgStep_bClr hseq, stepBClr, goto_seq]
    split
    · exact .bClr k ‹_›
    · exact .bClrLast k ‹_›
  | rb l p =>
    rw [fgStep_rb hseq, stepRb, goto_seq]
    split
    · exact .rb l ‹_›
    · exact .rbLast l ‹_›
  | iWait =>
    rw [fgReady, hseq] at h
    rw [fgStep_iWait hseq, stepIWait_of_set h]
    exact .iWait
  | _ =>
    rw [fgStep_seq_of_seq hseq]
    constructor

/-- A part that the position's micro-step does not write is as it was. -/
theorem fgStep_agree {f : Field} (hf : ¬f.Writer s.seq) (draw : BitVec 2) : State.agree f s (fgStep draw s) :=
  unchanged_fgStep s draw f (mt Field.writer_of_mem hf)

end

/-! ## The pattern in flight (R91, R94, R95) -/

/-- The slot whose word is in the chain, waiting for the latch. -/
def MicroStep.chained : MicroStep → Option (Plane × Layer)
  | .fWait b l => some (b, l)
  | .fOff b l => some (b, l)
  | .fLatch b l => some (b, l)
  | _ => none

/-- The slot whose word is in the latch, waiting for the light. -/
def MicroStep.latched : MicroStep → Option (Plane × Layer)
  | .fOn b l => some (b, l)
  | _ => none

theorem chained_eq_some_iff {m : MicroStep} {b : Plane} {l : Layer} :
    m.chained = some (b, l) ↔ m = .fWait b l ∨ m = .fOff b l ∨ m = .fLatch b l := by
  cases m <;> simp [MicroStep.chained]

theorem latched_eq_some_iff {m : MicroStep} {b : Plane} {l : Layer} : m.latched = some (b, l) ↔ m = .fOn b l := by
  cases m <;> simp [MicroStep.latched]

/-- No slot's word is in the chain or in the latch, waiting. -/
structure MicroStep.NoneInFlight (m : MicroStep) : Prop where
  chained : m.chained = none
  latched : m.latched = none

theorem noneInFlight_afterOn (b : Plane) (l : Layer) : (afterOn b l).NoneInFlight := by
  constructor <;> decide +revert

theorem noneInFlight_afterRebuild (l : Layer) : (afterRebuild l).NoneInFlight := by
  constructor <;> decide +revert

theorem noneInFlight_firstOfAnimation (id : Fin 4) : (firstOfAnimation id).NoneInFlight := by
  constructor <;> decide +revert

theorem noneInFlight_buttonExit (k : Ctx) : (buttonExit k).NoneInFlight := by
  cases k <;> exact ⟨rfl, rfl⟩

theorem noneInFlight_firstOfAction (k : Ctx) (a : ButtonAction) : (firstOfAction k a).NoneInFlight := by
  cases a with
  | exit => exact noneInFlight_buttonExit k
  | _ => exact ⟨rfl, rfl⟩

/-- Only the slot's own steps lead into the flight. -/
theorem Follows.slot_or_noneInFlight {m m' : MicroStep} (h : Follows m m') :
    (∃ b l, m = .fShift b l ∧ m' = .fWait b l ∨ m = .fWait b l ∧ m' = .fOff b l ∨ m = .fOff b l ∧ m' = .fLatch b l ∨
      m = .fLatch b l ∧ m' = .fOn b l) ∨ m'.NoneInFlight := by
  cases h with
  | fShift b l => exact .inl ⟨b, l, .inl ⟨rfl, rfl⟩⟩
  | fWait b l => exact .inl ⟨b, l, .inr (.inl ⟨rfl, rfl⟩)⟩
  | fOff b l => exact .inl ⟨b, l, .inr (.inr (.inl ⟨rfl, rfl⟩))⟩
  | fLatch b l => exact .inl ⟨b, l, .inr (.inr (.inr ⟨rfl, rfl⟩))⟩
  | fOn b l => exact .inr (noneInFlight_afterOn b l)
  | aBegin id => exact .inr (noneInFlight_firstOfAnimation id)
  | bSample k a => exact .inr (noneInFlight_firstOfAction k a)
  | bOff k => exact .inr (noneInFlight_buttonExit k)
  | bOn k => exact .inr (noneInFlight_buttonExit k)
  | bAWrite k => exact .inr (noneInFlight_buttonExit k)
  | rbLast l => exact .inr (noneInFlight_afterRebuild l)
  | _ => exact .inr ⟨rfl, rfl⟩

/-- A slot's word comes to the chain at the slot's `F_SHIFT`. -/
theorem Follows.fShift_or_chained {m m' : MicroStep} (h : Follows m m') {b : Plane} {l : Layer}
    (hchained : m'.chained = some (b, l)) : m = .fShift b l ∨ m.chained = some (b, l) := by
  obtain ⟨b', l', ⟨rfl, rfl⟩ | ⟨rfl, rfl⟩ | ⟨rfl, rfl⟩ | ⟨rfl, rfl⟩⟩ | hnone := h.slot_or_noneInFlight
  · cases hchained
    exact .inl rfl
  · exact .inr hchained
  · exact .inr hchained
  · cases hchained
  · exact nomatch hnone.chained.symm.trans hchained

/-- A slot's word comes to the latch at the slot's `F_LATCH`. -/
theorem Follows.fLatch_of_latched {m m' : MicroStep} (h : Follows m m') {b : Plane} {l : Layer}
    (hlatched : m'.latched = some (b, l)) : m = .fLatch b l := by
  obtain ⟨b', l', ⟨rfl, rfl⟩ | ⟨rfl, rfl⟩ | ⟨rfl, rfl⟩ | ⟨rfl, rfl⟩⟩ | hnone := h.slot_or_noneInFlight
  iterate 3 · cases hlatched
  · cases hlatched
    rfl
  · exact nomatch hnone.latched.symm.trans hlatched

section

variable {s : State}

/-- The pattern in flight reads the datapath and `seq` alone. -/
theorem PatternInFlight.of_agree {t : State} (hp : PatternInFlight s) (hsame : SameDatapath s t)
    (hseq : t.seq = s.seq) : PatternInFlight t where
  inChain := by simpa only [State.plane, hsame.pl, hsame.sr, hseq] using hp.inChain
  inLatch := by simpa only [State.plane, hsame.pl, hsame.out, hseq] using hp.inLatch

/-- While a slot's word is in the chain no turn of the foreground writes the chain or the bit-planes. -/
theorem fgStep_of_chained {b : Plane} {l : Layer} (h : s.seq.chained = some (b, l)) (draw : BitVec 2) :
    (fgStep draw s).sr = s.sr ∧ (fgStep draw s).pl = s.pl := by
  rw [chained_eq_some_iff] at h
  constructor
  · refine fgStep_agree (f := .shiftRegister) ?_ draw
    rintro ⟨b', l', hseq⟩
    simp [hseq] at h
  · refine fgStep_agree (f := .planes) ?_ draw
    rintro ⟨l', p, hseq⟩
    simp [hseq] at h

/-- `F_SHIFT` brings the slot's word to the chain and `F_LATCH` from there to the latch. -/
theorem PatternInFlight.fgStep (hp : PatternInFlight s) (draw : BitVec 2) : PatternInFlight (fgStep draw s) := by
  cases hready : fgReady s with
  | false =>
    rw [fgStep_of_not_ready hready]
    exact hp
  | true =>
    have hnext := follows_fgStep hready draw
    refine ⟨fun b l hseq => ?chain, fun b l hseq => ?latch⟩
    case chain =>
      obtain hshift | hchained := hnext.fShift_or_chained (chained_eq_some_iff.mpr hseq)
      · rw [fgStep_fShift hshift]
        rfl
      · obtain ⟨hsr, hpl⟩ := fgStep_of_chained hchained draw
        rw [hsr, State.plane, hpl]
        exact hp.inChain b l (chained_eq_some_iff.mp hchained)
    case latch =>
      have hlatch := hnext.fLatch_of_latched (latched_eq_some_iff.mpr hseq)
      rw [fgStep_fLatch hlatch]
      exact hp.inChain b l (.inr (.inr hlatch))

/-- No agent but the foreground moves it. -/
theorem turnResult_seq {e : Event} (he : ∀ d, e ≠ .fg d) (s : State) : (turnResult e s).seq = s.seq := by
  refine unchanged_turnResult s e .sequencer ?_
  cases e with
  | fg d => exact absurd rfl (he d)
  | _ => simp [turnWrites, handlerWrites]

/-- Every step of every agent keeps the pattern in flight. -/
theorem PatternInFlight.step {t : State} (hp : PatternInFlight s) (h : step s = .next t) : PatternInFlight t := by
  obtain ⟨u, hu, rfl⟩ := step_turn h
  have hpu : PatternInFlight u := hp.of_agree
    ⟨hu .planes (by decide), hu .shiftRegister (by decide), hu .outputLatch (by decide), hu .enables (by decide)⟩
    (hu .sequencer (by decide))
  cases he : s.nextEvent.1 with
  | fg d => exact hpu.fgStep d
  | _ => exact hpu.of_agree (sameDatapath_turnResult (by simp) u) (turnResult_seq (by simp) u)

end

/-- Settles O38: every step by `PatternInFlight.step`, and at reset nothing is in flight at `LOOP`. -/
theorem stepKeepsThePatternInFlight : Obligations.StepKeepsThePatternInFlight := by
  refine ⟨fun _ _ hp h => hp.step h, fun c u => ⟨fun b l hseq => ?_, fun b l hseq => ?_⟩⟩
  · exact absurd (chained_eq_some_iff.mpr hseq) (by simp [State.resetWith, MicroStep.chained])
  · cases hseq

end Sys2Proof.Machine

/-! ## The step and the receive handler (R111, R114, R115, R118, R134, R136, R137) -/

namespace Sys2Proof.Machine

open Sys2Proof

/-! ### Which command a step runs -/

theorem step_of_agenda {s : State} {e : Event} {rest : List Event} (h : s.agenda = e :: rest) :
    step s = agentStep e { s with agenda := rest } := by
  rw [step, nextEvent_cons h]

theorem step_of_no_agenda {s : State} (h : s.agenda = []) :
    step s = agentStep (Config.freeEvent s.freeIdx) { s with freeIdx := s.freeIdx + 1 } := by
  rw [step, nextEvent_nil h]

/-- Settles O7 by the two cases of the agenda. -/
theorem stepTakesTheNextEvent : Obligations.StepTakesTheNextEvent :=
  ⟨fun _ _ _ h => step_of_agenda h, fun _ h => step_of_no_agenda h⟩

/-- The handler's turn with interrupts open and a byte pending runs the byte's command. -/
theorem agentStep_rxh_of_enabled {s : State} (hie : s.ie = true) (hfull : s.rxFull = true) :
    agentStep .rxh s = exec (decodeByte s.rxBuf) { s with rxFull := false } := by
  rw [agentStep_eq, turnResult_rxh_of_enabled hie hfull, exec_eq]

/-- One byte decodes to the byte's command. -/
theorem decode_singleton {x : Byte} {i : Instr} (h : decode [x] = .ok (i, [])) : decodeByte x = i := by
  cases h
  rfl

/-- Settles O5: the agenda's head is the handler's turn, and its byte is the stream's one byte. -/
theorem handlerTurnRunsThePendingByte : Obligations.HandlerTurnRunsThePendingByte := by
  intro s rest i hagenda hie hfull hdecode
  rw [step_of_agenda hagenda, agentStep_rxh_of_enabled (s := { s with agenda := rest }) hie hfull,
    decode_singleton hdecode]

/-- A table word of eight bits is one byte. -/
theorem decodeTableWord_eight {w : Nat} (hw : w < 256) :
    decodeTableWord 8 w = some (decodeByte (BitVec.ofNat 8 w)) := by
  have hmod : w % 2 ^ 8 = w := Nat.mod_eq_of_lt hw
  rw [decodeTableWord, hmod]
  rfl

/-- Settles O6: `withFetchWord` is the handler's turn on the word's one byte. -/
theorem stepRunsTheFetchedWord : Obligations.StepRunsTheFetchedWord := by
  intro s w i hw hdecode
  have hmod : w % 2 ^ 8 = w := Nat.mod_eq_of_lt hw
  obtain rfl : decodeByte (BitVec.ofNat 8 w) = i := Option.some.inj ((decodeTableWord_eight hw).symm.trans hdecode)
  rw [State.withFetchWord, hmod, State.withPendingByte, step_of_agenda rfl, agentStep_rxh_of_enabled rfl rfl]

/-- Settles O12: the command's one write each. -/
theorem powerAndPingWriteOneVariableEach : Obligations.PowerAndPingWriteOneVariableEach := fun s =>
  ⟨⟨_, exec_eq _ s, rfl, unchanged_button (.inl (by decide)) (.inr rfl) (.inr rfl) (.inr rfl) (.inr rfl)⟩,
    ⟨_, exec_eq _ s, rfl, unchanged_button (.inl (by decide)) (.inr rfl) (.inr rfl) (.inr rfl) (.inr rfl)⟩,
    ⟨_, exec_eq _ s, rfl, unchanged_command (.inr rfl) (.inr rfl) (.inl (by decide)) (.inr rfl)⟩⟩

/-! ### When the handler has a step (R134) -/

section

variable {s t : State}

theorem agentStep_rxh_of_disabled (h : ¬(s.ie = true ∧ s.rxFull = true)) : agentStep .rxh s = .next s := by
  rw [agentStep_eq, turnResult_rxh_of_disabled h]

/-- The handler's turn consumes the byte. -/
theorem agentStep_rxh_consumes (hie : s.ie = true) (hfull : s.rxFull = true) :
    ∃ t, agentStep .rxh s = .next t ∧ t.rxFull = false := by
  rw [agentStep_eq, turnResult_rxh_of_enabled hie hfull]
  exact ⟨_, rfl, commandResult_rxFull _ s⟩

/-- While the interrupts are masked only `F_UNMASK` opens them. -/
theorem masked_or_fUnmask (hmasked : s.ie = false) (h : step s = .next t) :
    t.ie = false ∨ (∃ d, s.nextEvent.1 = .fg d) ∧ s.seq = .fUnmask := by
  by_cases hsame : t.ie = s.ie
  · exact .inl (hsame.trans hmasked)
  · obtain ⟨⟨d, hd⟩, hseq | hseq⟩ := fg_of_changed h (f := .interruptEnable) (by decide) hsame
    · obtain ⟨u, hu, rfl⟩ := step_fg h hd
      rw [fgStep_fMask ((hu .sequencer (by decide)).trans hseq)]
      exact .inl rfl
    · exact .inr ⟨⟨d, hd⟩, hseq⟩

/-- While the interrupts are masked a pending byte stays. -/
theorem pending_of_masked (hmasked : s.ie = false) (hfull : s.rxFull = true) (h : step s = .next t) :
    t.rxFull = true ∧ t.rxBuf = s.rxBuf := by
  constructor
  · by_contra hclear
    have hne : t.rxFull ≠ s.rxFull := fun hsame => hclear (hsame.trans hfull)
    have hrxh := input_of_rxFull_changed h hne
    rw [if_neg hclear] at hrxh
    obtain ⟨u, hu, rfl⟩ := step_turn h
    have hdisabled : ¬(u.ie = true ∧ u.rxFull = true) := fun ⟨hie, _⟩ =>
      Bool.false_ne_true (hmasked.symm.trans ((hu .interruptEnable (by decide)).symm.trans hie))
    rw [hrxh, turnResult_rxh_of_disabled hdisabled] at hne
    exact hne (hu .rxFull (by decide))
  · by_contra hne
    exact Bool.false_ne_true ((host_of_rxBuf_changed h hne).2.symm.trans hfull)

/-- A byte that arrives while none is pending is kept. -/
theorem received_of_empty (hempty : s.rxFull = false) {v : Byte} (he : s.nextEvent.1 = .host v)
    (h : step s = .next t) : t.rxFull = true ∧ t.rxBuf = v := by
  obtain ⟨u, hu, rfl⟩ := step_turn h
  rw [he, turnResult, hostStep_of_empty ((hu .rxFull (by decide)).trans hempty)]
  exact ⟨rfl, rfl⟩

end

/-- Settles O8: the handler's two cases, the masked phase by `Invariants.maskedExactly`, and what a step does to the mask
and to the pending byte while the interrupts are masked. -/
theorem handlerEnabledExactlyWhenUnmaskedAndPending : Obligations.HandlerEnabledExactlyWhenUnmaskedAndPending := by
  refine ⟨fun s => agentStep_rxh_of_disabled, fun s => agentStep_rxh_consumes, fun s hs hmasked => ?phase,
    fun s d hseq => ?mask, fun s t hmasked h => ⟨masked_or_fUnmask hmasked h, fun hfull => pending_of_masked hmasked hfull h,
      fun v hempty he => received_of_empty hempty he h⟩, fun s d hseq hfull => ?unmask⟩
  case phase =>
    have hie : s.ie = false := hs.maskedExactly.mpr hmasked
    exact agentStep_rxh_of_disabled fun ⟨hopen, _⟩ => Bool.false_ne_true (hie.symm.trans hopen)
  case mask => exact ⟨stepFMask s, congrArg _ (fgStep_fMask hseq d), rfl, rfl, rfl⟩
  case unmask =>
    obtain ⟨u, hu, hconsumed⟩ := agentStep_rxh_consumes (s := stepFUnmask s) rfl hfull
    exact ⟨stepFUnmask s, u, congrArg _ (fgStep_fUnmask hseq d), hfull, rfl, hu, hconsumed⟩

/-! ## Runs on an agenda (R47, R75, R135) -/

/-- The state without the agenda's head. -/
def State.dropEvent (s : State) : State := { s with agenda := s.agenda.tail }

/-- The turn of the agenda's head, which is `e`. -/
def takeTurn (s : State) (e : Event) : State := turnResult e s.dropEvent

/-- The state the turns of the agenda's first events leave. -/
def turns (es : List Event) (s : State) : State := es.foldl takeTurn s

@[simp] theorem turns_nil (s : State) : turns [] s = s := rfl

@[simp] theorem turns_cons (e : Event) (es : List Event) (s : State) : turns (e :: es) s = turns es (takeTurn s e) :=
  rfl

/-- No agent writes the events to come. -/
theorem turnResult_agenda (e : Event) (s : State) : (turnResult e s).agenda = s.agenda := by
  refine unchanged_turnResult s e .agenda fun hmem => ?_
  cases e with
  | fg d => exact Field.writer_of_mem (m := s.seq) hmem
  | _ => simp [turnWrites, handlerWrites] at hmem

theorem takeTurn_agenda (s : State) (e : Event) : (takeTurn s e).agenda = s.agenda.tail := turnResult_agenda e _

/-- A turn writes its agent's write set, and takes the agenda's head. -/
theorem unchanged_takeTurn (s : State) (e : Event) : Unchanged (.agenda :: turnWrites e s.seq) s (takeTurn s e) := by
  intro f hf
  obtain ⟨hagenda, hmem⟩ := not_or.mp (mt List.mem_cons.mpr hf)
  have hturn := unchanged_turnResult s.dropEvent e f hmem
  cases f with
  | agenda => exact absurd rfl hagenda
  | _ => exact hturn

/-- The steps of an agenda are its events' turns. -/
theorem run_eq_turns {es rest : List Event} {s : State} (h : s.agenda = es ++ rest) :
    Host.Core.run core es.length s = .next (turns es s) ∧ (turns es s).agenda = rest := by
  induction es generalizing s with
  | nil => exact ⟨rfl, h⟩
  | cons e es ih =>
    have hstep : core.step s = .next (takeTurn s e) := by
      have hdrop : s.dropEvent = { s with agenda := es ++ rest } := by rw [State.dropEvent, h]; rfl
      rw [takeTurn, hdrop]
      exact (step_of_agenda h).trans (agentStep_eq e _)
    have hrun : Host.Core.run core (es.length + 1) s = Host.Core.run core es.length (takeTurn s e) := by
      simp only [Host.Core.run, hstep]
    rw [List.length_cons, hrun, turns_cons]
    exact ih (by rw [takeTurn_agenda, h]; rfl)

/-- The foreground's turn as the agenda's head. -/
theorem takeTurn_fg (s : State) (d : BitVec 2) : takeTurn s (.fg d) = fgStep d s.dropEvent := rfl

/-! ### The lost update of the link counter (R52, R81) -/

/-- Settles O47: the value `T0_READ` took is written back over the handler's 255, unless it is 0. -/
theorem pingBetweenReadAndWriteIsLost : Obligations.PingBetweenReadAndWriteIsLost := by
  intro s d d' rest hseq hie hfull hbuf hagenda
  obtain ⟨hrun, -⟩ := run_eq_turns (es := [.fg d, .rxh, .fg d']) hagenda
  have hread : takeTurn s (.fg d) = stepT0Read s.dropEvent := fgStep_t0Read (s := s.dropEvent) hseq d
  have hping : takeTurn (takeTurn s (.fg d)) .rxh =
      { (takeTurn s (.fg d)).dropEvent with rxFull := false, usartTimeout := 255#8 } := by
    rw [hread, takeTurn, turnResult_rxh_of_enabled (s := (stepT0Read s.dropEvent).dropEvent) hie hfull]
    have hdecode : decodeByte s.rxBuf = .ping := by rw [hbuf]; rfl
    exact congrArg (commandResult · _) hdecode
  rw [turns_cons, turns_cons, turns_cons, turns_nil, hping, hread] at hrun
  refine ⟨_, hrun, ?_⟩
  rw [takeTurn_fg, fgStep_t0Write rfl]
  exact ⟨congrArg State.rxFull (stepT0Write_eq _), stepT0Write_usartTimeout_toNat _⟩

/-! ### The lost second byte (R110, R111, R152) -/

/-- Settles O58: the second delivery records the overrun, and the handler takes the first byte. -/
theorem secondUnconsumedByteIsLost : Obligations.SecondUnconsumedByteIsLost := by
  intro s v w rest hempty hie hagenda
  obtain ⟨hrun, -⟩ := run_eq_turns (es := [.host v, .host w, .rxh]) hagenda
  have hfirst : takeTurn s (.host v) = { s with agenda := .host w :: .rxh :: rest, rxBuf := v, rxFull := true } := by
    rw [takeTurn, State.dropEvent, hagenda]
    exact hostStep_of_empty (s := { s with agenda := .host w :: .rxh :: rest }) hempty v
  have hsecond : takeTurn (takeTurn s (.host v)) (.host w) =
      { s with agenda := .rxh :: rest, rxBuf := v, rxFull := true, trace := s.trace ++ [.rxOverrun w] } := by
    rw [hfirst]
    exact hostStep_of_full (s := { s with agenda := .rxh :: rest, rxBuf := v, rxFull := true }) rfl w
  have hthird : turns [.host v, .host w, .rxh] s = commandResult (decodeByte v)
      { s with agenda := rest, rxBuf := v, rxFull := false, trace := s.trace ++ [.rxOverrun w] } := by
    rw [turns_cons, turns_cons, turns_cons, turns_nil, hsecond]
    exact turnResult_rxh_of_enabled
      (s := { s with agenda := rest, rxBuf := v, rxFull := true, trace := s.trace ++ [.rxOverrun w] }) hie rfl
  rw [← hempty] at hthird
  exact hrun.trans ((congrArg _ hthird).trans (exec_eq _ _).symm)

end Sys2Proof.Machine

/-! ## A press held from release (R129) -/

namespace Sys2Proof.Machine

open Sys2Proof

/-- The hold counter counts down from 255 and stays at 0. -/
theorem satDec_iterate_toNat (n : Nat) : (satDec^[n] 255#8).toNat = 255 - n := by
  induction n with
  | zero => rfl
  | succ n ih => rw [Function.iterate_succ_apply', satDec_toNat, ih, Nat.sub_sub]

theorem buttonCheck_held_counter (retrigger on : Bool) :
    (fun t => (buttonCheck retrigger false on t).1) = satDec :=
  funext (buttonCheck_held_fst retrigger on)

/-- Held and powered on, the check after `n` others clears at the 5th and powers off at the 255th, before which the floor
is not reached. -/
theorem buttonCheck_held_on_action (retrigger : Bool) {n : Nat} (hn : n < 255) {x : Byte} (hx : x.toNat = 255 - n) :
    (buttonCheck retrigger false true x).2 = if n = 4 then .clear else if n = 254 then .off else .exit := by
  rw [buttonCheck_held_on]
  simp only [satDec_toNat, hx]
  by_cases hclear : n = 4
  · subst hclear; rfl
  by_cases hoff : n = 254
  · subst hoff; rfl
  · rw [if_neg (by omega), if_neg (by omega), if_neg hclear, if_neg hoff]

/-- Held and powered off, the check after `n` others powers on at the 55th. -/
theorem buttonCheck_held_off_action (retrigger : Bool) {n : Nat} {x : Byte} (hx : x.toNat = 255 - n) :
    (buttonCheck retrigger false false x).2 = if n = 54 then .on else .exit := by
  rw [buttonCheck_held_off]
  simp only [satDec_toNat, hx]
  exact if_congr (by omega) rfl rfl

/-- One check of a held button, with the power state its action leaves. -/
def heldCheck (retrigger : Bool) (x : Bool × Byte) : Bool × Byte :=
  let r := buttonCheck retrigger false x.1 x.2
  (if r.2 = .on then true else if r.2 = .off then false else x.1, r.1)

/-- Where a press held from release while powered off stands after `n` checks: powered on by the 55th, off by the
255th. -/
def HeldFor (n : Nat) (x : Bool × Byte) : Prop := x.1 = decide (55 ≤ n ∧ n < 255) ∧ x.2.toNat = 255 - n

section

variable {n : Nat} {x : Bool × Byte}

/-- The check after `n` others powers on at the 55th and off at the 255th. -/
theorem HeldFor.action (h : HeldFor n x) (retrigger : Bool) :
    (buttonCheck retrigger false x.1 x.2).2 = if n = 54 then .on else if n = 254 then .off else .exit := by
  obtain ⟨hon, hcount⟩ := h
  by_cases hrange : 55 ≤ n ∧ n < 255
  · rw [hon, decide_eq_true hrange, buttonCheck_held_on_action retrigger hrange.2 hcount,
      if_neg (show ¬n = 4 by omega), if_neg (show ¬n = 54 by omega)]
  · rw [hon, decide_eq_false hrange, buttonCheck_held_off_action retrigger hcount,
      if_neg (show ¬n = 254 by omega)]

theorem HeldFor.next (h : HeldFor n x) (retrigger : Bool) : HeldFor (n + 1) (heldCheck retrigger x) := by
  refine ⟨?_, ?_⟩
  · rw [heldCheck, h.action retrigger, h.1]
    by_cases hpowersOn : n = 54
    · subst hpowersOn; rfl
    by_cases hpowersOff : n = 254
    · subst hpowersOff; rfl
    · rw [if_neg hpowersOn, if_neg hpowersOff]
      exact decide_eq_decide.mpr (by omega)
  · rw [heldCheck, buttonCheck_held_fst, satDec_toNat, h.2, Nat.sub_sub]

theorem heldFor_iterate (retrigger : Bool) (n : Nat) : HeldFor n ((heldCheck retrigger)^[n] (false, 255#8)) := by
  induction n with
  | zero => exact ⟨rfl, rfl⟩
  | succ n ih =>
    rw [Function.iterate_succ_apply']
    exact ih.next retrigger

end

/-- Settles O56: the counter by `satDec_iterate_toNat`, the actions of a press that keeps its power state by the check's
two cases, and those of the press that powers on by `HeldFor`. -/
theorem heldButtonActsOncePerThreshold : Obligations.HeldButtonActsOncePerThreshold := by
  intro retrigger on n
  simp only [buttonCheck_held_counter]
  have hcount := satDec_iterate_toNat n
  have hheld := heldFor_iterate retrigger n
  exact ⟨hcount, fun _ hn => buttonCheck_held_on_action retrigger hn hcount,
    fun _ => buttonCheck_held_off_action retrigger hcount, ⟨hheld.1, hheld.2, hheld.action retrigger⟩,
    fun t => buttonCheck_released retrigger true t⟩

end Sys2Proof.Machine

/-! ## One tick of Chase (R106, R107) -/

namespace Sys2Proof.Machine

open Sys2Proof

/-- An admitted `MAX_BRIGHT` is lit (R9). -/
theorem maxBright_ne_zero (c : ValidConfig) : c.val.maxBright ≠ 0x00#8 := by
  obtain ⟨-, hlow⟩ := (Config.valid_iff c.val).mp c.property
  intro hzero
  rw [hzero] at hlow
  exact absurd hlow (by decide)

/-- Of the voxels of layer `L` exactly position `c` is lit. -/
def OneLit (L : Layer) (c : Nat) (s : State) : Prop := ∀ p : Pos, s.read (voxelAddr L p) ≠ 0x00#8 ↔ p.val = c

/-- Layer `L` is dark, or the position before `c` alone is lit. -/
def ReadyToChase (L : Layer) (c : Nat) (s : State) : Prop :=
  (∀ p : Pos, s.read (voxelAddr L p) = 0x00#8) ∨ OneLit L ((c + 15) % 16) s

/-- What a chase does to its layer: the position before `c` is cleared and then `c` set. -/
theorem ReadyToChase.oneLit {L : Layer} {c : Nat} {s t u : State} {v : Byte} (h : ReadyToChase L c s) (hv : v ≠ 0x00#8)
    (hclear : StoredOnly (16 * L.val + (c + 15) % 16) 0x00#8 s t) (hset : StoredOnly (16 * L.val + c) v t u)
    (hc : c < 16) : OneLit L c u := by
  obtain ⟨hcleared, hclear⟩ := hclear
  obtain ⟨hlit, hset⟩ := hset
  intro p
  by_cases hp : p.val = c
  · rw [voxelAddr, hp, hlit]
    exact iff_of_true hv rfl
  rw [hset _ (by rw [voxelAddr]; omega)]
  refine iff_of_false (not_not.mpr ?_) hp
  by_cases hprev : p.val = (c + 15) % 16
  · rw [voxelAddr, hprev, hcleared]
  · rw [hclear _ (by rw [voxelAddr]; omega)]
    exact h.elim (· p) fun hone => not_not.mp (mt (hone p).mp hprev)

section

variable {s : State} {L M : Layer}

theorem takeTurn_aChs {k : Fin 2} (hseq : s.seq = .aChs M k) (d : BitVec 2) :
    takeTurn s (.fg d) = stepAChs M k s.dropEvent := fgStep_aChs (s := s.dropEvent) hseq d

/-- The position Chase comes to after `k` layers. -/
def chasePlace (k : Nat) : MicroStep := if h : k < 4 then .aChs ⟨k, h⟩ 0 else .aChsEnd

theorem stepAChs_one_seq (M : Layer) (s : State) : (stepAChs M 1 s).seq = chasePlace (M.val + 1) := by
  by_cases h : M.val + 1 < 4
  · rw [chasePlace, dif_pos h]
    exact stepAChs_one_seq_of_next rfl s
  · obtain rfl : M = 3 := Fin.ext (by omega)
    rfl

/-- A layer's two voxel writes: the layer's own chase, and no other layer's voxel. -/
theorem chase_layer (hseq : s.seq = .aChs M 0) (d d' : BitVec 2) :
    (∃ t, StoredOnly (16 * M.val + (s.animS.toNat % 16 + 15) % 16) 0x00#8 s t ∧
      StoredOnly (16 * M.val + s.animS.toNat % 16) s.cfg.val.maxBright t (turns [.fg d, .fg d'] s)) ∧
    (turns [.fg d, .fg d'] s).seq = chasePlace (M.val + 1) ∧
    (turns [.fg d, .fg d'] s).animS = s.animS ∧ (turns [.fg d, .fg d'] s).animationId = s.animationId := by
  have hclear : takeTurn s (.fg d) = stepAChs M 0 s.dropEvent := takeTurn_aChs hseq d
  have hset : turns [.fg d, .fg d'] s = stepAChs M 1 (stepAChs M 0 s.dropEvent).dropEvent := by
    rw [turns_cons, turns_cons, turns_nil, hclear]
    exact takeTurn_aChs rfl d'
  rw [hset]
  exact ⟨⟨_, storedOnly_stepAChs_zero M s.dropEvent, storedOnly_stepAChs_one M (stepAChs M 0 s.dropEvent).dropEvent⟩,
    stepAChs_one_seq M _, rfl, rfl⟩

/-- A Chase tick has done its layers below `k`, with `c` the state it latched. -/
structure ChasedTo (L : Layer) (c k : Nat) (s : State) : Prop where
  seq : s.seq = chasePlace k
  latched : s.animS.toNat = c
  animation : s.animationId = 2
  layer : if L.val < k then OneLit L c s else ReadyToChase L c s

theorem ChasedTo.next {c k : Nat} (h : ChasedTo L c k s) (hk : k < 4) (hc : c < 16) (d d' : BitVec 2) :
    ChasedTo L c (k + 1) (turns [.fg d, .fg d'] s) := by
  have hseq : s.seq = .aChs ⟨k, hk⟩ 0 := h.seq.trans (dif_pos hk)
  obtain ⟨⟨t, hclear, hset⟩, hnext, hanimS, hid⟩ := chase_layer hseq d d'
  simp only [h.latched, Nat.mod_eq_of_lt hc] at hclear hset
  refine ⟨hnext, (congrArg _ hanimS).trans h.latched, hid.trans h.animation, ?_⟩
  have hlayer := h.layer
  by_cases hown : L.val = k
  · obtain rfl : L = ⟨k, hk⟩ := Fin.ext hown
    rw [if_neg (Nat.lt_irrefl k)] at hlayer
    rw [if_pos k.lt_succ_self]
    exact hlayer.oneLit (maxBright_ne_zero s.cfg) hclear hset hc
  · have hkept : ∀ p : Pos, (turns [.fg d, .fg d'] s).read (voxelAddr L p) = s.read (voxelAddr L p) := fun p => by
      have hp := p.isLt
      rw [hset.2 _ (by rw [voxelAddr]; omega), hclear.2 _ (by rw [voxelAddr]; omega)]
    have hlt : L.val < k + 1 ↔ L.val < k := by omega
    simpa only [hlt, OneLit, ReadyToChase, hkept] using hlayer

/-- `A_CHS_END` advances the state and leaves the layer, whose lit voxel is the one before the new state. -/
theorem ChasedTo.finish {c : Nat} (h : ChasedTo L c 4 s) (hc : c < 16) (d : BitVec 2) :
    (takeTurn s (.fg d)).seq = .rb 1 0 ∧ (takeTurn s (.fg d)).animationId = 2 ∧
      (takeTurn s (.fg d)).animationState.toNat = (c + 1) % 16 ∧
      OneLit L (((takeTurn s (.fg d)).animationState.toNat + 15) % 16) (takeTurn s (.fg d)) := by
  have hend : takeTurn s (.fg d) = stepAChsEnd s.dropEvent := fgStep_aChsEnd (s := s.dropEvent) h.seq d
  have hstate : (takeTurn s (.fg d)).animationState.toNat = (c + 1) % 16 := by
    rw [hend, stepAChsEnd_animationState_toNat, State.dropEvent, h.latched, Nat.mod_eq_of_lt hc]
  have hlit : OneLit L c s := (if_pos L.isLt).mp h.layer
  have hback : ((c + 1) % 16 + 15) % 16 = c := by omega
  rw [hstate, hback, hend]
  exact ⟨rfl, h.animation, rfl, hlit⟩

end

/-- Settles O53: the dispatch latches the state, the four layers follow by `ChasedTo.next`, and `A_CHS_END` advances the
state. -/
theorem chaseTickKeepsOneVoxelLit : Obligations.ChaseTickKeepsOneVoxelLit := by
  intro s draws rest L hseq hid hstate hlen hagenda hlayer
  obtain ⟨hrun, -⟩ := run_eq_turns hagenda
  rw [List.length_map, hlen] at hrun
  refine ⟨_, hrun, ?_⟩
  match draws, hlen with
  | [b, d₀, d₁, d₂, d₃, d₄, d₅, d₆, d₇, e], _ =>
    have hbegin : takeTurn s (.fg b) = stepABegin s.dropEvent := fgStep_aBegin (s := s.dropEvent) hseq b
    have hstart : ChasedTo L s.animationState.toNat 0 (takeTurn s (.fg b)) := by
      rw [hbegin]
      exact ⟨congrArg firstOfAnimation hid, rfl, hid, hlayer⟩
    have hc : s.animationState.toNat < 16 := Nat.lt_succ_of_le hstate
    have hdone := (((hstart.next (by decide) hc d₀ d₁).next (by decide) hc d₂ d₃).next (by decide) hc d₄ d₅).next
      (by decide) hc d₆ d₇
    exact hdone.finish hc e

end Sys2Proof.Machine

/-! ## The rebuild of a layer, with any turns between its micro-steps (R67) -/

namespace Sys2Proof.Machine

open Sys2Proof

/-- A turn of the foreground. -/
def isFg (e : Event) : Bool :=
  match e with
  | .fg _ => true
  | _ => false

theorem isFg_eq_false_iff (e : Event) : isFg e = false ↔ ∀ d, e ≠ .fg d := by
  cases e <;> simp [isFg]

/-- The position of the rebuild of layer `l` after `j` micro-steps. -/
def rebuildPlace (l : Layer) (j : Nat) : MicroStep := if h : j < 16 then .rb l ⟨j, h⟩ else afterRebuild l

theorem stepRb_seq (l : Layer) (p : Pos) (s : State) : (stepRb l p s).seq = rebuildPlace l (p.val + 1) := by
  by_cases h : p.val + 1 < 16
  · rw [rebuildPlace, dif_pos h]
    exact stepRb_seq_of_next rfl l s
  · obtain rfl : p = 15 := Fin.ext (by omega)
    rfl

/-- What the turns `es` from `s` on, where `j` positions of layer `l` are rebuilt, make of the layer's words. -/
structure Rebuilds (l : Layer) (j : Nat) (es : List Event) (s : State) : Prop where
  seq : (turns es s).seq = afterRebuild l
  others : ∀ (m : Layer) (b : Plane), m ≠ l → (turns es s).plane m b = s.plane m b
  kept : ∀ (p : Pos) (b : Plane), p.val < j → ((turns es s).plane l b).getLsbD (s.cfg.val.wire p).val =
    (s.plane l b).getLsbD (s.cfg.val.wire p).val
  /-- Each remaining position takes the bits its own micro-step reads. -/
  rebuilt : ∀ p : Pos, j ≤ p.val → ∃ k d, es[k]? = some (.fg d) ∧ (turns (es.take k) s).seq = .rb l p ∧
    ∀ b : Plane, ((turns es s).plane l b).getLsbD (s.cfg.val.wire p).val =
      ((turns (es.take k) s).read (voxelAddr l p)).getLsbD b.val
  /-- They are the bits of `s` where no handler turn changes a voxel of the layer. -/
  undisturbed : (∀ k, es[k]? = some .rxh → ∀ p : Pos,
      (turns (es.take (k + 1)) s).read (voxelAddr l p) = (turns (es.take k) s).read (voxelAddr l p)) →
    ∀ (p : Pos) (b : Plane), j ≤ p.val →
      ((turns es s).plane l b).getLsbD (s.cfg.val.wire p).val = (s.read (voxelAddr l p)).getLsbD b.val

section

variable {l : Layer} {j : Nat} {e : Event} {es : List Event} {s : State}

/-- The rebuild is done. -/
theorem Rebuilds.nil (hseq : s.seq = afterRebuild l) (hj : 16 ≤ j) : Rebuilds l j [] s where
  seq := hseq
  others _ _ _ := rfl
  kept _ _ _ := rfl
  rebuilt p hp := absurd p.isLt (by omega)
  undisturbed _ p _ hp := absurd p.isLt (by omega)

/-- A turn of another agent leaves the words, and the store but for the handler's. -/
theorem Rebuilds.cons_other (h : Rebuilds l j es (takeTurn s e)) (he : ∀ d, e ≠ .fg d) : Rebuilds l j (e :: es) s := by
  have hcfg : (takeTurn s e).cfg = s.cfg := turnResult_cfg e _
  have hpl : (takeTurn s e).pl = s.pl := (sameDatapath_turnResult he s.dropEvent).pl
  have hplane : ∀ m b, (takeTurn s e).plane m b = s.plane m b := fun m b => by rw [State.plane, State.plane, hpl]
  refine ⟨h.seq, fun m b hm => (h.others m b hm).trans (hplane m b), fun p b hp => ?kept, fun p hp => ?rebuilt,
    fun hquiet p b hp => ?undisturbed⟩
  case kept => simpa only [turns_cons, hcfg, hplane] using h.kept p b hp
  case rebuilt =>
    obtain ⟨k, d, hk, hseq, hbits⟩ := h.rebuilt p hp
    exact ⟨k + 1, d, hk, hseq, hcfg ▸ hbits⟩
  case undisturbed =>
    have hread : (takeTurn s e).read (voxelAddr l p) = s.read (voxelAddr l p) := by
      by_cases hrxh : e = .rxh
      · exact hquiet 0 (by rw [hrxh]; rfl) p
      · refine unchanged_takeTurn s e .store ?_ _
        have hsub := turnWrites_subset_inputWrites he hrxh s.seq
        simpa using fun hmem => absurd (hsub hmem) (by decide)
    rw [← hread]
    exact hcfg ▸ h.undisturbed (fun k hk => hquiet (k + 1) hk) p b hp

/-- The micro-step of position `j` writes that position's bits. -/
theorem Rebuilds.cons_fg (d : BitVec 2) (h : Rebuilds l (j + 1) es (takeTurn s (.fg d))) (hj : j < 16)
    (hseq : s.seq = .rb l ⟨j, hj⟩) : Rebuilds l j (.fg d :: es) s := by
  have hturn : takeTurn s (.fg d) = stepRb l ⟨j, hj⟩ s.dropEvent := fgStep_rb (s := s.dropEvent) hseq d
  have hcfg : (takeTurn s (.fg d)).cfg = s.cfg := turnResult_cfg _ _
  have hbit : ∀ (p : Pos) (b : Plane), ((takeTurn s (.fg d)).plane l b).getLsbD (s.cfg.val.wire p).val =
      if p.val = j then (s.read (voxelAddr l p)).getLsbD b.val else (s.plane l b).getLsbD (s.cfg.val.wire p).val := by
    intro p b
    rw [hturn, stepRb_plane_getLsbD]
    by_cases hp : p = ⟨j, hj⟩
    · subst hp
      rw [if_pos ⟨rfl, rfl⟩, if_pos rfl]
      rfl
    · rw [if_neg fun hw => hp ((wire_bijective s.cfg).injective hw.2), if_neg fun hw => hp (Fin.ext hw)]
      rfl
  have hread : ∀ a, (takeTurn s (.fg d)).read a = s.read a := fun a => by rw [hturn]; rfl
  refine ⟨h.seq, fun m b hm => (h.others m b hm).trans ?others, fun p b hp => ?kept, fun p hp => ?rebuilt,
    fun hquiet p b hp => ?undisturbed⟩
  case others =>
    rw [hturn, stepRb_plane, if_neg hm]
    rfl
  case kept =>
    have hkept := h.kept p b (by omega)
    rw [hcfg, hbit, if_neg (by omega)] at hkept
    exact hkept
  case rebuilt =>
    obtain hp' | hp' := Nat.eq_or_lt_of_le hp
    · obtain rfl : p = ⟨j, hj⟩ := Fin.ext hp'.symm
      refine ⟨0, d, rfl, hseq, fun b => ?_⟩
      have hkept := h.kept ⟨j, hj⟩ b j.lt_succ_self
      rw [hcfg, hbit, if_pos rfl] at hkept
      exact hkept
    · obtain ⟨k, d', hk, hseq', hbits⟩ := h.rebuilt p hp'
      exact ⟨k + 1, d', hk, hseq', hcfg ▸ hbits⟩
  case undisturbed =>
    obtain hp' | hp' := Nat.eq_or_lt_of_le hp
    · have hkept := h.kept p b (by omega)
      rw [hcfg, hbit, if_pos hp'.symm] at hkept
      exact hkept
    · rw [← hread]
      exact hcfg ▸ h.undisturbed (fun k hk => hquiet (k + 1) hk) p b hp'

/-- Sixteen turns of the foreground rebuild the layer, whatever the other agents do between them. -/
theorem rebuilds_of_count (hj : j ≤ 16) (hseq : s.seq = rebuildPlace l j) (hcount : es.countP isFg + j = 16) :
    Rebuilds l j es s := by
  induction es generalizing s j with
  | nil =>
    obtain rfl : j = 16 := by simpa using hcount
    exact .nil hseq le_rfl
  | cons e es ih =>
    cases he : isFg e with
    | false =>
      have hother := (isFg_eq_false_iff e).mp he
      refine (ih hj ((turnResult_seq hother s.dropEvent).trans hseq) ?_).cons_other hother
      simpa [List.countP_cons, he] using hcount
    | true =>
      rw [List.countP_cons, if_pos he] at hcount
      obtain ⟨d, rfl⟩ : ∃ d, e = .fg d := by
        cases e with
        | fg d => exact ⟨d, rfl⟩
        | _ => cases he
      have hlt : j < 16 := by omega
      have hat : s.seq = .rb l ⟨j, hlt⟩ := hseq.trans (dif_pos hlt)
      have hnext : (takeTurn s (.fg d)).seq = rebuildPlace l (j + 1) := by
        rw [takeTurn_fg, fgStep_rb (s := s.dropEvent) hat]
        exact stepRb_seq l ⟨j, hlt⟩ _
      exact (ih hlt hnext (by omega)).cons_fg d hlt hat

end

/-- Settles O45: the sixteen micro-steps by `rebuilds_of_count`; the states between are the runs of the agenda's first
events. -/
theorem layerRebuildIsBitPlanes : Obligations.LayerRebuildIsBitPlanes := by
  intro s l events rest hseq hagenda hcount
  obtain ⟨hrun, hrest⟩ := run_eq_turns hagenda
  have hprefix : ∀ k ≤ events.length, Host.Core.run core k s = .next (turns (events.take k) s) := fun k hk => by
    have hsplit : s.agenda = events.take k ++ (events.drop k ++ rest) := by
      rw [hagenda, ← List.append_assoc, List.take_append_drop]
    have hrun := (run_eq_turns hsplit).1
    rwa [List.length_take_of_le hk] at hrun
  have hfg : (events.filter isFg).length = 16 := hcount
  have h : Rebuilds l 0 events s :=
    rebuilds_of_count (Nat.zero_le _) hseq (by rw [List.countP_eq_length_filter, hfg])
  refine ⟨_, hrun, hrest, h.seq, h.others, fun p => ?own, fun hquiet b => ?planes⟩
  case own =>
    obtain ⟨k, d, hk, hat, hbits⟩ := h.rebuilt p (Nat.zero_le _)
    have hlt := (List.getElem?_eq_some_iff.mp hk).1
    exact ⟨k, _, d, hprefix k hlt.le, hk, hat, hbits⟩
  case planes =>
    have hundisturbed := h.undisturbed fun k hk p => by
      have hlt := (List.getElem?_eq_some_iff.mp hk).1
      exact hquiet k _ _ hk (hprefix k hlt.le) (hprefix (k + 1) hlt) p
    refine BitVec.eq_of_getLsbD_eq fun i hi => ?_
    obtain ⟨p, hp⟩ := (wire_bijective s.cfg).surjective ⟨i, hi⟩
    obtain rfl : (s.cfg.val.wire p).val = i := congrArg Fin.val hp
    rw [hundisturbed p b (Nat.zero_le _), bitPlanes_get, getLsbD_bitPlane (wire_bijective s.cfg).injective]
    rfl

end Sys2Proof.Machine

/-! ## The slots under the ideal timing (R89)

While the button is released a powered-on frame goes through its slots in order. `InSlot` says where the foreground and
the counter stand in a slot, and `idealStep` keeps it, or leads to the next slot or to the next frame's start. -/

namespace Sys2Proof.Machine

open Sys2Proof

/-! ### Positions and slots -/

/-- The slot before a slot, the last one before the first. -/
def slotBefore (b : Plane) (l : Layer) : Plane × Layer := (if l = 0 then b - 1 else b, l - 1)

/-- The slot whose wait was passed last, at the positions of a powered-on frame with the button released. -/
def MicroStep.slot : MicroStep → Option (Plane × Layer)
  | .loop => some (6, 3)
  | .fMask => some (6, 3)
  | .fShift b l => some (slotBefore b l)
  | .fWait b l => some (slotBefore b l)
  | .fOff b l => some (b, l)
  | .fLatch b l => some (b, l)
  | .fOn b l => some (b, l)
  | .fUnmask => some (0, 3)
  | .t0Read => some (6, 0)
  | .t0Write => some (6, 0)
  | .t1Gate => some (6, 1)
  | .aBegin => some (6, 1)
  | .aSpk _ => some (6, 1)
  | .aSwp _ => some (6, 1)
  | .aSwpEnd => some (6, 1)
  | .aChs _ _ => some (6, 1)
  | .aChsEnd => some (6, 1)
  | .aFil _ => some (6, 1)
  | .bSample .frame => some (6, 2)
  | .rb l _ => some (6, l)
  | _ => none

/-- Where a slot ends (R89). -/
def slotEnd (period : Nat) (b : Plane) (l : Layer) : Nat := threshold l b + slotTicks period l b

theorem slot_afterOn : ∀ b l, (afterOn b l).slot = some (b, l) := by decide

theorem slot_afterRebuild : ∀ l, (afterRebuild l).slot = some (6, l) := by decide

theorem slot_firstOfAnimation : ∀ id, (firstOfAnimation id).slot = some (6, 1) := by decide

/-- A slot but the last ends where the next one starts. -/
theorem slotEnd_slotBefore (period : Nat) {b : Plane} {l : Layer} (h : ¬(b = 0 ∧ l = 0)) :
    slotEnd period (slotBefore b l).1 (slotBefore b l).2 = threshold l b := by
  have hlast : ¬((slotBefore b l).1 = 6 ∧ (slotBefore b l).2 = 3) := by revert b l; decide
  have hnext : threshold (slotBefore b l).2 (slotBefore b l).1 + 2 ^ (slotBefore b l).1.val = threshold l b := by
    revert b l; decide
  rw [slotEnd, slotTicks, if_neg hlast, hnext]

/-- The last slot ends with the counter's period. -/
theorem slotEnd_last {period : Nat} (h : 444 < period) : slotEnd period 6 3 = period := by
  have hlast : threshold 3 6 = 444 := by decide
  rw [slotEnd, slotTicks, if_pos ⟨rfl, rfl⟩, hlast]
  omega

theorem threshold_le : ∀ l b, threshold l b ≤ 444 := by decide

/-- A turn that passes no wait stays in the slot; but `LOOP` may power down and the button's check may act. -/
theorem Follows.slot {m m' : MicroStep} (h : Follows m m') {x : Plane × Layer} (hslot : m.slot = some x)
    (hwait : m.slotWait = false) : m'.slot = some x ∨ m = .loop ∧ m' = .iOff ∨
      m = .bSample .frame ∧ ∃ a ≠ ButtonAction.exit, m' = firstOfAction .frame a := by
  cases h with
  | loopOff => exact .inr (.inl ⟨rfl, rfl⟩)
  | fWait b l => cases hwait
  | fOn b l => exact .inl ((slot_afterOn b l).trans hslot)
  | aBegin id => exact .inl ((slot_firstOfAnimation id).trans hslot)
  | rbLast l => exact .inl ((slot_afterRebuild l).trans hslot)
  | bSample k a =>
    match k with
    | .idle => cases hslot
    | .frame =>
      by_cases ha : a = .exit
      · subst ha
        exact .inl hslot
      · exact .inr (.inr ⟨rfl, a, ha, rfl⟩)
  | bOff | bOn | bClr | bClrLast | bARead | bAWrite | iOff | iWait => cases hslot
  | _ => exact .inl hslot

section

variable {s : State} {b : Plane} {l : Layer}

/-! ### What the foreground leaves while it stays in its slot -/

theorem fgStep_tcnt (draw : BitVec 2) (s : State) : (fgStep draw s).tcnt = s.tcnt :=
  fgStep_agree (f := .counter) id draw

theorem fgStep_btn (draw : BitVec 2) (s : State) : (fgStep draw s).btn = s.btn :=
  fgStep_agree (f := .button) id draw

theorem fgStep_on {x : Plane × Layer} (hslot : s.seq.slot = some x) (draw : BitVec 2) :
    (fgStep draw s).on = s.on := by
  refine fgStep_agree (f := .power) ?_ draw
  rintro ⟨k, hseq | hseq⟩ <;> simp [hseq, MicroStep.slot] at hslot

/-- The foreground is in slot (b,l) of a powered-on frame with the button released, and so is the counter. -/
structure InSlot (b : Plane) (l : Layer) (s : State) : Prop where
  on : s.on = true
  released : s.btn = true
  slot : s.seq.slot = some (b, l)
  fromStart : threshold l b ≤ s.tcnt
  toEnd : s.tcnt ≤ slotEnd s.cfg.val.counterPeriod b l
  inPeriod : s.tcnt < s.cfg.val.counterPeriod
  /-- The counter moves at the waits alone. -/
  atStart : s.seq.slotWait = false → s.tcnt = threshold l b

/-- At a wait the slot is the one before. -/
theorem InSlot.wait_of_slotWait (h : InSlot b l s) (hwait : s.seq.slotWait = true) :
    ∃ b' l', s.seq = .fWait b' l' ∧ slotBefore b' l' = (b, l) := by
  have hslot := h.slot
  cases hseq : s.seq with
  | fWait b' l' =>
    rw [hseq] at hslot
    exact ⟨b', l', rfl, Option.some.inj hslot⟩
  | _ => simp [hseq, MicroStep.slotWait] at hwait

/-- The foreground is held in a slot at a wait alone. -/
theorem InSlot.slotWait_of_not_ready (h : InSlot b l s) (hready : fgReady s = false) : s.seq.slotWait = true := by
  cases hseq : s.seq with
  | fWait b' l' => rfl
  | iWait =>
    have hslot := h.slot
    rw [hseq] at hslot
    cases hslot
  | _ => simp [fgReady, hseq] at hready

/-- At the wait of a slot but the first the slot before ends at the wait's threshold. -/
theorem slotEnd_of_before {period : Nat} {b' : Plane} {l' : Layer} (hbefore : slotBefore b' l' = (b, l))
    (hfirst : ¬(b' = 0 ∧ l' = 0)) : slotEnd period b l = threshold l' b' := by
  rw [← slotEnd_slotBefore period hfirst, hbefore]

/-- The last slot comes before the first. -/
theorem last_of_before_first (hbefore : slotBefore 0 0 = (b, l)) : b = 6 ∧ l = 3 := Prod.mk.inj hbefore.symm

/-- A turn that passes no wait stays in the slot. -/
theorem InSlot.fgStep_slot (h : InSlot b l s) (hready : fgReady s = true) (hwait : s.seq.slotWait = false)
    (draw : BitVec 2) : (fgStep draw s).seq.slot = some (b, l) := by
  obtain hslot | ⟨hseq, hnext⟩ | ⟨hseq, a, ha, hnext⟩ := (follows_fgStep hready draw).slot h.slot hwait
  · exact hslot
  · rw [fgStep_loop hseq, stepLoop, goto_seq, if_pos h.on] at hnext
    cases hnext
  · rw [fgStep_bSample hseq, (stepBSample_of_released h.released).2] at hnext
    cases a with
    | exit => exact absurd rfl ha
    | _ => cases hnext

/-- Away from the waits a turn of the foreground keeps the slot. -/
theorem InSlot.fgStep (h : InSlot b l s) (hready : fgReady s = true) (hwait : s.seq.slotWait = false)
    (draw : BitVec 2) : InSlot b l (Machine.fgStep draw s) := by
  have htcnt := fgStep_tcnt draw s
  have hstart := htcnt.trans (h.atStart hwait)
  refine ⟨(fgStep_on h.slot draw).trans h.on, (fgStep_btn draw s).trans h.released, h.fgStep_slot hready hwait draw,
    hstart.ge, ?_, ?_, fun _ => hstart⟩
  · rw [htcnt, fgStep_cfg]
    exact h.toEnd
  · rw [htcnt, fgStep_cfg]
    exact h.inPeriod

/-- In a slot the first slot's wait is held: the counter is far from 0. -/
theorem InSlot.not_first_of_passes (h : InSlot b l s) {b' : Plane} {l' : Layer} (hbefore : slotBefore b' l' = (b, l))
    (hpass : waitPasses b' l' s.tcnt = true) : ¬(b' = 0 ∧ l' = 0) := by
  rintro ⟨rfl, rfl⟩
  obtain ⟨rfl, rfl⟩ := last_of_before_first hbefore
  have hstart := h.fromStart
  rw [(waitPasses_first _).mp hpass] at hstart
  exact absurd hstart (by decide)

/-- At a wait that passes the next slot begins. -/
theorem InSlot.fgStep_wait (h : InSlot b l s) (hready : fgReady s = true) (hwait : s.seq.slotWait = true)
    (draw : BitVec 2) : ∃ b' l', ¬(b' = 0 ∧ l' = 0) ∧ slotBefore b' l' = (b, l) ∧ s.seq = .fWait b' l' ∧
      InSlot b' l' (Machine.fgStep draw s) := by
  obtain ⟨b', l', hseq, hbefore⟩ := h.wait_of_slotWait hwait
  have hpass : waitPasses b' l' s.tcnt = true := by
    rw [fgReady, hseq] at hready
    exact hready
  have hfirst := h.not_first_of_passes hbefore hpass
  have hat : s.tcnt = threshold l' b' :=
    Nat.le_antisymm (slotEnd_of_before hbefore hfirst ▸ h.toEnd) ((waitPasses_of_ne hfirst _).mp hpass)
  have hstart := (fgStep_tcnt draw s).trans hat
  have hnext : (Machine.fgStep draw s).seq = .fOff b' l' := by
    rw [fgStep_fWait hseq, stepFWait_of_passes hpass, goto_seq]
  refine ⟨b', l', hfirst, hbefore, hseq, (fgStep_on h.slot draw).trans h.on, (fgStep_btn draw s).trans h.released,
    congrArg MicroStep.slot hnext, hstart.ge, ?_, ?_, fun _ => hstart⟩
  · rw [hstart]
    exact Nat.le_add_right _ _
  · rw [fgStep_tcnt, fgStep_cfg]
    exact h.inPeriod

/-- While the foreground is held the slot goes on. -/
theorem InSlot.lt_slotEnd (h : InSlot b l s) (hready : fgReady s = false) :
    s.tcnt < slotEnd s.cfg.val.counterPeriod b l := by
  obtain ⟨b', l', hseq, hbefore⟩ := h.wait_of_slotWait (h.slotWait_of_not_ready hready)
  by_cases hfirst : b' = 0 ∧ l' = 0
  · obtain ⟨rfl, rfl⟩ := hfirst
    obtain ⟨rfl, rfl⟩ := last_of_before_first hbefore
    rw [slotEnd_last (lt_counterPeriod s.cfg)]
    exact h.inPeriod
  · rw [slotEnd_of_before hbefore hfirst]
    refine Nat.lt_of_not_le fun hle => ?_
    rw [fgReady, hseq] at hready
    exact Bool.false_ne_true (hready.symm.trans ((waitPasses_of_ne hfirst _).mpr hle))

theorem tickStep_tcnt (s : State) : (tickStep s).tcnt = (s.tcnt + 1) % s.cfg.val.counterPeriod := rfl

/-- A tick inside the period, while the foreground is held, keeps the slot. -/
theorem InSlot.tickStep (h : InSlot b l s) (hready : fgReady s = false) (hin : s.tcnt + 1 < s.cfg.val.counterPeriod) :
    InSlot b l (tickStep s) := by
  have htcnt : (Machine.tickStep s).tcnt = s.tcnt + 1 := Nat.mod_eq_of_lt hin
  refine ⟨h.on, h.released, h.slot, ?_, ?_, htcnt ▸ hin, fun hwait => ?_⟩
  · exact htcnt ▸ h.fromStart.trans (Nat.le_succ _)
  · exact htcnt ▸ h.lt_slotEnd hready
  · exact absurd ((h.slotWait_of_not_ready hready).symm.trans hwait) Bool.noConfusion

/-- The counter wraps in front of the next frame alone. -/
theorem InSlot.tickStep_wrap (h : InSlot b l s) (hready : fgReady s = false)
    (hwrap : s.tcnt + 1 = s.cfg.val.counterPeriod) : s.seq = .fWait 0 0 ∧ (Machine.tickStep s).tcnt = 0 := by
  obtain ⟨b', l', hseq, hbefore⟩ := h.wait_of_slotWait (h.slotWait_of_not_ready hready)
  have hfirst : b' = 0 ∧ l' = 0 := by
    by_contra hfirst
    have hlt := h.lt_slotEnd hready
    rw [slotEnd_of_before hbefore hfirst] at hlt
    have hle := threshold_le l' b'
    have hperiod := lt_counterPeriod s.cfg
    omega
  obtain ⟨rfl, rfl⟩ := hfirst
  refine ⟨hseq, ?_⟩
  rw [tickStep_tcnt, hwrap, Nat.mod_self]

/-! ### In front of a frame -/

/-- A powered-on frame with the button released is about to start, at `tcnt = 0`. -/
structure LeadIn (s : State) : Prop where
  on : s.on = true
  released : s.btn = true
  atZero : s.tcnt = 0
  place : s.seq = .loop ∨ s.seq = .fMask ∨ s.seq = .fShift 0 0 ∨ s.seq = .fWait 0 0

theorem LeadIn.slot (h : LeadIn s) : s.seq.slot = some (6, 3) := by
  obtain hseq | hseq | hseq | hseq := h.place <;> rw [hseq] <;> rfl

theorem LeadIn.ready (h : LeadIn s) : fgReady s = true := by
  obtain hseq | hseq | hseq | hseq := h.place <;> rw [fgReady, hseq]
  rw [h.atZero]
  rfl

/-- A turn of the foreground comes nearer to the frame, or starts it. -/
theorem LeadIn.fgStep (h : LeadIn s) (draw : BitVec 2) :
    LeadIn (fgStep draw s) ∨ s.seq = .fWait 0 0 ∧ InSlot 0 0 (fgStep draw s) := by
  have hon := (fgStep_on h.slot draw).trans h.on
  have hbtn := (fgStep_btn draw s).trans h.released
  have hzero := (fgStep_tcnt draw s).trans h.atZero
  obtain hseq | hseq | hseq | hseq := h.place
  · refine .inl ⟨hon, hbtn, hzero, .inr (.inl ?_)⟩
    rw [fgStep_loop hseq, stepLoop, h.on]
    rfl
  · refine .inl ⟨hon, hbtn, hzero, .inr (.inr (.inl ?_))⟩
    rw [fgStep_fMask hseq]
    rfl
  · refine .inl ⟨hon, hbtn, hzero, .inr (.inr (.inr ?_))⟩
    rw [fgStep_fShift hseq]
    rfl
  · refine .inr ⟨hseq, hon, hbtn, ?_, hzero.ge, hzero ▸ Nat.zero_le _, ?_, fun _ => hzero⟩
    · have hpass : waitPasses 0 0 s.tcnt = true := (waitPasses_first _).mpr h.atZero
      rw [fgStep_fWait hseq, stepFWait_of_passes hpass]
      rfl
    · rw [hzero, fgStep_cfg]
      exact Nat.zero_lt_of_lt (lt_counterPeriod s.cfg)

/-! ### The schedule of the ideal run -/

theorem idealStep_of_ready (h : fgReady s = true) (draw : BitVec 2) : idealStep s draw = fgStep draw s := by
  rw [idealStep, idealTick, h]
  rfl

theorem idealStep_of_held (h : fgReady s = false) (draw : BitVec 2) : idealStep s draw = tickStep s := by
  rw [idealStep, idealTick, h]
  rfl

/-- Where the ideal run of powered-on frames stands: in front of a frame, or in one of its slots. -/
def OnSchedule (s : State) : Prop := LeadIn s ∨ ∃ b l, InSlot b l s

/-- In a slot the ideal run goes on in a slot, unless the counter wraps at the next frame's wait. -/
theorem InSlot.idealStep (h : InSlot b l s) (draw : BitVec 2) :
    (s.tcnt ≤ (idealStep s draw).tcnt ∧ ∃ b' l', InSlot b' l' (idealStep s draw)) ∨
      s.seq = .fWait 0 0 ∧ LeadIn (idealStep s draw) := by
  cases hready : fgReady s with
  | true =>
    rw [idealStep_of_ready hready]
    refine .inl ⟨(fgStep_tcnt draw s).ge, ?_⟩
    cases hwait : s.seq.slotWait with
    | false => exact ⟨b, l, h.fgStep hready hwait draw⟩
    | true =>
      obtain ⟨b', l', -, -, -, hnext⟩ := h.fgStep_wait hready hwait draw
      exact ⟨b', l', hnext⟩
  | false =>
    rw [idealStep_of_held hready]
    obtain hin | hwrap := Nat.lt_or_eq_of_le (Nat.succ_le_of_lt h.inPeriod)
    · refine .inl ⟨?_, b, l, h.tickStep hready hin⟩
      rw [tickStep_tcnt, Nat.mod_eq_of_lt hin]
      exact Nat.le_succ _
    · obtain ⟨hseq, hzero⟩ := h.tickStep_wrap hready hwrap
      exact .inr ⟨hseq, h.on, h.released, hzero, .inr (.inr (.inr hseq))⟩

theorem OnSchedule.idealStep (h : OnSchedule s) (draw : BitVec 2) : OnSchedule (idealStep s draw) := by
  obtain hlead | ⟨b, l, hslot⟩ := h
  · rw [idealStep_of_ready hlead.ready]
    exact (hlead.fgStep draw).imp_right fun hnext => ⟨0, 0, hnext.2⟩
  · obtain ⟨-, hnext⟩ | ⟨-, hnext⟩ := hslot.idealStep draw
    · exact .inr hnext
    · exact .inl hnext

end

end Sys2Proof.Machine

/-! ## The ideal run keeps TIMING_CONTRACT (R150) -/

namespace Sys2Proof.Machine

open Sys2Proof

/-! ### Consecutive states of the ideal run -/

/-- A state of the ideal run and the next. -/
def IdealNext (s t : State) : Prop := OnSchedule s ∧ ∃ draw, t = idealStep s draw

theorem idealStates_onSchedule {s : State} (h : OnSchedule s) (draws : List (BitVec 2)) :
    ∀ u ∈ idealStates draws s, OnSchedule u := by
  induction draws generalizing s with
  | nil => simpa [idealStates] using h
  | cons d ds ih =>
    rw [idealStates, List.forall_mem_cons]
    exact ⟨h, ih (h.idealStep d)⟩

theorem head?_idealStates (draws : List (BitVec 2)) (s : State) : (idealStates draws s).head? = some s := by
  cases draws <;> rfl

theorem idealStates_isChain {s : State} (h : OnSchedule s) (draws : List (BitVec 2)) :
    (idealStates draws s).IsChain IdealNext := by
  induction draws generalizing s with
  | nil => exact .singleton s
  | cons d ds ih =>
    rw [idealStates, List.isChain_cons]
    refine ⟨fun y hy => ⟨h, d, ?_⟩, ih (h.idealStep d)⟩
    exact Option.some.inj (hy.symm.trans (head?_idealStates ds _))

/-- The relation of consecutive elements may use what holds of all elements but the last. -/
theorem isChain_imp_of_dropLast {α : Type} {R S : α → α → Prop} {P : α → Prop} {xs : List α} (h : xs.IsChain R)
    (hP : ∀ x ∈ xs.dropLast, P x) (himp : ∀ x y, P x → R x y → S x y) : xs.IsChain S := by
  induction h with
  | nil => exact .nil
  | singleton x => exact .singleton x
  | cons_cons hR hchain ih =>
    rw [List.dropLast_cons_cons, List.forall_mem_cons] at hP
    exact .cons_cons (himp _ _ hP.1 hR) (ih hP.2)

/-- What each step keeps passes from the first element to the last. -/
theorem getLast?_of_isChain {α : Type} {S : α → α → Prop} {Q : α → Prop} {xs : List α} (h : xs.IsChain S)
    (hstep : ∀ x y, S x y → Q x → Q y) (hhead : ∀ x ∈ xs.head?, Q x) : ∀ y ∈ xs.getLast?, Q y := by
  induction h with
  | nil => exact fun _ hy => nomatch hy
  | singleton x => exact hhead
  | cons_cons hR hchain ih =>
    rw [List.getLast?_cons_cons]
    refine ih fun y hy => ?_
    obtain rfl := Option.some.inj hy
    exact hstep _ _ hR (hhead _ rfl)

section

variable {s t : State}

/-- Outside the frame-start wait the ideal run does not wrap the counter. -/
theorem IdealNext.tcnt_le (h : IdealNext s t) (hseq : s.seq ≠ .fWait 0 0) : s.tcnt ≤ t.tcnt := by
  obtain ⟨hlead | ⟨b, l, hslot⟩, d, rfl⟩ := h
  · rw [hlead.atZero]
    exact Nat.zero_le _
  · exact ((hslot.idealStep d).resolve_right fun hwrap => hseq hwrap.1).1

/-- Outside the frame-start wait the ideal run stays in the slots of a frame. -/
theorem IdealNext.inSlot (h : IdealNext s t) (hseq : s.seq ≠ .fWait 0 0) (hs : ∃ b l, InSlot b l s) :
    ∃ b l, InSlot b l t := by
  obtain ⟨-, d, rfl⟩ := h
  obtain ⟨b, l, hslot⟩ := hs
  exact ((hslot.idealStep d).resolve_right fun hwrap => hseq hwrap.1).2

/-- Ticks fall at the waits alone. -/
theorem IdealNext.tcnt_eq (h : IdealNext s t) (hwait : s.seq.slotWait = false) : t.tcnt = s.tcnt := by
  obtain ⟨hs, d, rfl⟩ := h
  have hready : fgReady s = true := by
    obtain hlead | ⟨b, l, hslot⟩ := hs
    · exact hlead.ready
    · by_contra hheld
      have := hslot.slotWait_of_not_ready (Bool.eq_false_iff.mpr hheld)
      exact Bool.false_ne_true (hwait.symm.trans this)
  rw [idealStep_of_ready hready, fgStep_tcnt]

/-- A slot's wait is reached from the slot's shift. -/
theorem Follows.fShift_of_fWait {m : MicroStep} {b : Plane} {l : Layer} (h : Follows m (.fWait b l)) :
    m = .fShift b l := by
  obtain hshift | hchained := h.fShift_or_chained rfl
  · exact hshift
  · obtain rfl | rfl | rfl := chained_eq_some_iff.mp hchained <;> cases h

theorem slotTicks_pos {period : Nat} (h : 444 < period) (l : Layer) (b : Plane) : 0 < slotTicks period l b := by
  have hlast : threshold 3 6 = 444 := by decide
  rw [slotTicks]
  split
  · omega
  · exact Nat.two_pow_pos _

/-- Every wait but the frame's first is reached before its threshold. -/
theorem IdealNext.lt_threshold (h : IdealNext s t) {b : Plane} {l : Layer} (hfirst : ¬(b = 0 ∧ l = 0))
    (hseq : t.seq = .fWait b l) (hne : s.seq ≠ t.seq) : t.tcnt < threshold l b := by
  obtain ⟨hs, d, rfl⟩ := h
  cases hready : fgReady s with
  | false =>
    rw [idealStep_of_held hready] at hne
    exact absurd rfl hne
  | true =>
    rw [idealStep_of_ready hready] at hseq ⊢
    have hshift : s.seq = .fShift b l := (hseq ▸ follows_fgStep hready d).fShift_of_fWait
    obtain hlead | ⟨b', l', hslot⟩ := hs
    · have hplace := hlead.place
      simp only [hshift, reduceCtorEq, MicroStep.fShift.injEq, false_or, or_false] at hplace
      exact absurd hplace hfirst
    · have hbefore : slotBefore b l = (b', l') := Option.some.inj ((congrArg MicroStep.slot hshift).symm.trans hslot.slot)
      rw [fgStep_tcnt, hslot.atStart (congrArg MicroStep.slotWait hshift),
        ← slotEnd_of_before (period := s.cfg.val.counterPeriod) hbefore hfirst]
      exact Nat.lt_add_of_pos_right (slotTicks_pos (lt_counterPeriod s.cfg) l' b')

/-- A frame that has started is in one of its slots. -/
theorem OnSchedule.inSlot_of_started (h : OnSchedule s) (hstarted : s.seq.started = true) : ∃ b l, InSlot b l s := by
  refine h.resolve_left fun hlead => ?_
  obtain hseq | hseq | hseq | hseq := hlead.place <;> rw [hseq] at hstarted <;> cases hstarted

/-- No tick of the ideal run falls at a micro-step that is no wait. -/
theorem workTicks_eq_zero {seg : List State} (h : seg.IsChain IdealNext) : workTicks seg = 0 := by
  induction h with
  | nil => rfl
  | singleton s => rfl
  | cons_cons hR hchain ih =>
    rw [workTicks, ih, if_neg fun htick => htick.1 (hR.tcnt_eq htick.2)]

/-- While the frame-start wait is not passed the ideal run's counter does not wrap. -/
theorem pairwise_tcnt_le {seg : List State} (h : seg.IsChain IdealNext) (hseg : ∀ u ∈ seg.dropLast, u.seq ≠ .fWait 0 0) :
    seg.Pairwise fun s t => s.tcnt ≤ t.tcnt := by
  have hle : seg.IsChain fun s t => s.tcnt ≤ t.tcnt :=
    isChain_imp_of_dropLast h hseg fun _ _ hne hnext => hnext.tcnt_le hne
  exact List.pairwise_map.mp ((List.isChain_map State.tcnt).mpr hle).pairwise

/-- A stretch of the ideal run from inside a frame ends in one of the frame's slots. -/
theorem inSlot_of_stretch {seg : List State} (h : seg.IsChain IdealNext) (hmem : ∀ u ∈ seg, OnSchedule u)
    (hseg : FrameStretch seg) : ∀ t ∈ seg.getLast?, ∃ b l, InSlot b l t := by
  have hstep : seg.IsChain fun s t => (∃ b l, InSlot b l s) → ∃ b l, InSlot b l t :=
    isChain_imp_of_dropLast h hseg.oneFrame fun _ _ hne hnext => hnext.inSlot hne.1
  refine getLast?_of_isChain hstep (fun _ _ hS hQ => hS hQ) fun u hu => ?_
  obtain ⟨u', hu', hstarted⟩ := hseg.starts
  obtain rfl : u = u' := Option.some.inj (hu.symm.trans hu')
  exact (hmem u (List.mem_of_mem_head? hu)).inSlot_of_started hstarted

end

/-- Where the ideal run starts. -/
theorem FrameStart.leadIn {s : State} (h : FrameStart s) : LeadIn s :=
  ⟨h.poweredOn, h.released, h.atZero, .inl h.atLoop⟩

/-- Settles O60: the ideal run stays on schedule, so every stretch of it is a chain of `IdealNext`, whose lemmas are the
contract's parts. -/
theorem idealRunKeepsTheTimingContract : Obligations.IdealRunKeepsTheTimingContract := by
  intro s draws _ hstart
  have hsched : OnSchedule s := .inl hstart.leadIn
  have hchain : ∀ seg, seg <:+: idealStates draws s → seg.IsChain IdealNext := by
    rintro seg ⟨before, after, heq⟩
    have hall := idealStates_isChain hsched draws
    rw [← heq] at hall
    exact hall.left_of_append.right_of_append
  refine ⟨fun u t h b l hfirst hseq hne => ?early, fun seg h hseg => ?period, fun seg h hseg t ht hseq => ?start,
    fun seg l h _ => ?bitZero⟩
  case early => exact (List.isChain_pair.mp (hchain _ h)).lt_threshold hfirst hseq hne
  case period => exact pairwise_tcnt_le (hchain seg h) fun u hu => (hseg.oneFrame u hu).1
  case start =>
    obtain ⟨b, l, hslot⟩ := inSlot_of_stretch (hchain seg h)
      (fun u hu => idealStates_onSchedule hsched draws u (h.subset hu)) hseg t ht
    have hbefore : slotBefore 0 0 = (b, l) := Option.some.inj ((congrArg MicroStep.slot hseq).symm.trans hslot.slot)
    obtain ⟨rfl, rfl⟩ := last_of_before_first hbefore
    exact hslot.fromStart
  case bitZero => exact (workTicks_eq_zero (hchain seg h)).le.trans (Nat.zero_le 1)

end Sys2Proof.Machine

/-! ## One ideal frame (R89, R90) -/

namespace Sys2Proof.Machine

open Sys2Proof

/-! ### What the ideal run's timing does not read -/

/-- The state without the store, the datapath and the observations. -/
def State.control (s : State) : State :=
  { s with mem := [], pl := Vector.replicate 4 (Vector.replicate 7 0#16), sr := 0#16, out := 0#16,
           en := Vector.replicate 4 false, trace := [], zeroMissed := false }

theorem control_noteLate_goto (b : Plane) (l : Layer) (m : MicroStep) (s : State) :
    ((noteLate b l s).goto m).control = (s.goto m).control := by
  by_cases hfirst : b = 0 ∧ l = 0
  · obtain ⟨rfl, rfl⟩ := hfirst
    rw [noteLate_first]
    rfl
  · rw [noteLate_of_ne hfirst]
    rfl

/-- The control a turn of the foreground leaves depends on the control alone, and not on the oracle. -/
theorem control_fgStep (draw draw' : BitVec 2) (s : State) :
    (fgStep draw s).control = (fgStep draw' s.control).control := by
  cases hseq : s.seq with
  | fWait b l =>
    rw [fgStep_fWait hseq, fgStep_fWait (s := s.control) hseq]
    by_cases hpass : waitPasses b l s.tcnt = true
    · rw [stepFWait_of_passes hpass, stepFWait_of_passes (s := s.control) hpass, control_noteLate_goto,
        control_noteLate_goto]
      rfl
    · rw [stepFWait_of_held hpass, stepFWait_of_held (s := s.control) hpass]
      rfl
  | t0Write =>
    rw [fgStep_t0Write hseq, fgStep_t0Write (s := s.control) hseq, stepT0Write_eq, stepT0Write_eq]
    rfl
  | aChs L k =>
    rw [fgStep_aChs hseq, fgStep_aChs (s := s.control) hseq]
    match k with
    | 0 => rfl
    | 1 => rfl
  | iWait =>
    rw [fgStep_iWait hseq, fgStep_iWait (s := s.control) hseq]
    cases htov : s.tov with
    | true =>
      rw [stepIWait_of_set htov, stepIWait_of_set (s := s.control) htov]
      rfl
    | false =>
      rw [stepIWait_of_clear htov, stepIWait_of_clear (s := s.control) htov]
      rfl
  | _ =>
    rw [fgStep_of_seq hseq, fgStep_of_seq (s := s.control) hseq]
    rfl

theorem control_tickStep (s : State) : (tickStep s).control = (tickStep s.control).control := rfl

/-- The control of the ideal run goes its way whatever the store, the datapath and the oracle. -/
theorem control_idealStep {s t : State} (h : s.control = t.control) (draw draw' : BitVec 2) :
    (idealStep s draw).control = (idealStep t draw').control := by
  have hready : fgReady s.control = fgReady t.control := congrArg fgReady h
  cases hs : fgReady s with
  | true =>
    have ht : fgReady t = true := hready.symm.trans hs
    rw [idealStep_of_ready hs, idealStep_of_ready ht, control_fgStep draw draw', h,
      ← control_fgStep draw' draw']
  | false =>
    have ht : fgReady t = false := hready.symm.trans hs
    rw [idealStep_of_held hs, idealStep_of_held ht, control_tickStep, h, ← control_tickStep]

/-! ### The frame's light -/

/-- A position between a slot's darkening and its light (R93 to R95). -/
def MicroStep.switching : MicroStep → Bool
  | .fOff _ _ => true
  | .fLatch _ _ => true
  | .fOn _ _ => true
  | _ => false

/-- A frame that shows the words `P` is in slot (b,l): the words of a layer are kept until its rebuild, a slot's word is
on its way from its shift on, and away from the switch the slot's layer alone is lit, with the slot's word. -/
structure Showing (P : Layer → Plane → Word) (b : Plane) (l : Layer) (s : State) : Prop where
  invariants : Invariants s
  inSlot : InSlot b l s
  words : ∀ L c, s.tcnt < threshold L 6 → s.plane L c = P L c
  chain : ∀ c L, s.seq.chained = some (c, L) → s.tcnt ≤ threshold L c → s.sr = P L c
  latch : ∀ c L, s.seq.latched = some (c, L) → s.out = P L c
  light : s.seq.switching = false → s.out = P l b ∧ ∀ L, s.enabled L = decide (L = l)

section

variable {P : Layer → Plane → Word} {b : Plane} {l : Layer} {s : State}

/-- The words of a layer are written from its last slot on alone. -/
theorem InSlot.fgStep_plane (h : InSlot b l s) {L : Layer} (hearly : s.tcnt < threshold L 6) (c : Plane)
    (draw : BitVec 2) : (Machine.fgStep draw s).plane L c = s.plane L c := by
  by_cases hrb : ∃ l' p, s.seq = .rb l' p
  · obtain ⟨l', p, hseq⟩ := hrb
    obtain ⟨rfl, rfl⟩ : 6 = b ∧ l' = l :=
      Prod.mk.inj (Option.some.inj ((congrArg MicroStep.slot hseq).symm.trans h.slot))
    have hne : L ≠ l' := by
      rintro rfl
      exact hearly.ne (h.atStart (congrArg MicroStep.slotWait hseq))
    rw [fgStep_rb hseq, stepRb_plane, if_neg hne]
  · have hpl : (Machine.fgStep draw s).pl = s.pl := fgStep_agree (f := .planes) hrb draw
    rw [State.plane, State.plane, hpl]

theorem threshold_le_last : ∀ L c, threshold L c ≤ threshold L 6 := by decide

/-- The word in the chain is the slot's. -/
theorem Showing.fgStep_chain (h : Showing P b l s) (hready : fgReady s = true) (draw : BitVec 2) {c : Plane}
    {L : Layer} (hchained : (fgStep draw s).seq.chained = some (c, L)) (htime : s.tcnt ≤ threshold L c) :
    (fgStep draw s).sr = P L c := by
  obtain hshift | hchained := (follows_fgStep hready draw).fShift_or_chained hchained
  · have hbefore : slotBefore c L = (b, l) :=
      Option.some.inj ((congrArg MicroStep.slot hshift).symm.trans h.inSlot.slot)
    have hat := h.inSlot.atStart (congrArg MicroStep.slotWait hshift)
    have hfirst : ¬(c = 0 ∧ L = 0) := by
      rintro ⟨rfl, rfl⟩
      obtain ⟨rfl, rfl⟩ := last_of_before_first hbefore
      rw [hat] at htime
      exact absurd htime (by decide)
    have hearly : s.tcnt < threshold L 6 := by
      refine Nat.lt_of_lt_of_le ?_ (threshold_le_last L c)
      rw [hat, ← slotEnd_of_before (period := s.cfg.val.counterPeriod) hbefore hfirst]
      exact Nat.lt_add_of_pos_right (slotTicks_pos (lt_counterPeriod s.cfg) l b)
    rw [fgStep_fShift hshift]
    exact h.words L c hearly
  · rw [(fgStep_of_chained hchained draw).1]
    exact h.chain c L hchained htime

/-- The word in the latch is the slot's. -/
theorem Showing.fgStep_latch (h : Showing P b l s) (hready : fgReady s = true) (draw : BitVec 2) {c : Plane}
    {L : Layer} (hlatched : (fgStep draw s).seq.latched = some (c, L)) : (fgStep draw s).out = P L c := by
  have hseq := (follows_fgStep hready draw).fLatch_of_latched hlatched
  obtain ⟨rfl, rfl⟩ : c = b ∧ L = l :=
    Prod.mk.inj (Option.some.inj ((congrArg MicroStep.slot hseq).symm.trans h.inSlot.slot))
  have hat := h.inSlot.atStart (congrArg MicroStep.slotWait hseq)
  rw [fgStep_fLatch hseq]
  exact h.chain c L (congrArg MicroStep.chained hseq) hat.le

/-- What is lit after the switch, and stays lit, is the slot's word in the slot's layer. -/
theorem Showing.fgStep_light (h : Showing P b l s) (draw : BitVec 2)
    (hswitch : (fgStep draw s).seq.switching = false) :
    (fgStep draw s).out = P l b ∧ ∀ L, (fgStep draw s).enabled L = decide (L = l) := by
  by_cases hon : ∃ c L, s.seq = .fOn c L
  · obtain ⟨c, L, hseq⟩ := hon
    obtain ⟨rfl, rfl⟩ : c = b ∧ L = l :=
      Prod.mk.inj (Option.some.inj ((congrArg MicroStep.slot hseq).symm.trans h.inSlot.slot))
    rw [fgStep_fOn hseq]
    refine ⟨h.latch c L (congrArg MicroStep.latched hseq), fun M => ?_⟩
    rw [stepFOn_enabled, h.invariants.dark_of_switch (.inr hseq)]
    by_cases hM : M = L <;> simp [hM]
  · have hnot : s.seq.switching = false := by
      cases hseq : s.seq with
      | fOff c L =>
        rw [fgStep_fOff hseq] at hswitch
        cases hswitch
      | fLatch c L =>
        rw [fgStep_fLatch hseq] at hswitch
        cases hswitch
      | fOn c L => exact absurd ⟨c, L, hseq⟩ hon
      | _ => rfl
    have hout : (Machine.fgStep draw s).out = s.out := by
      refine fgStep_agree (f := .outputLatch) ?_ draw
      rintro ⟨c, L, hseq⟩
      rw [hseq] at hnot
      cases hnot
    have hen : (Machine.fgStep draw s).en = s.en := by
      refine fgStep_agree (f := .enables) ?_ draw
      rintro (hseq | ⟨c, L, hseq | hseq⟩)
      · have hslot := h.inSlot.slot
        rw [hseq] at hslot
        cases hslot
      all_goals
        rw [hseq] at hnot
        cases hnot
    rw [hout]
    simpa only [State.enabled, hen] using h.light hnot

theorem Showing.fgStep_words (h : Showing P b l s) (draw : BitVec 2) (L : Layer) (c : Plane)
    (htime : (fgStep draw s).tcnt < threshold L 6) : (fgStep draw s).plane L c = P L c := by
  rw [fgStep_tcnt] at htime
  rw [h.inSlot.fgStep_plane htime, h.words L c htime]

/-- Away from the waits a turn of the foreground keeps what the frame shows. -/
theorem Showing.fgStep (h : Showing P b l s) (hready : fgReady s = true) (hwait : s.seq.slotWait = false)
    (draw : BitVec 2) : Showing P b l (Machine.fgStep draw s) where
  invariants := h.invariants.fgStep draw
  inSlot := h.inSlot.fgStep hready hwait draw
  words := h.fgStep_words draw
  chain _ _ hchained htime := h.fgStep_chain hready draw hchained (fgStep_tcnt draw s ▸ htime)
  latch _ _ := h.fgStep_latch hready draw
  light := h.fgStep_light draw

/-- So does the passing of a wait, into the next slot. -/
theorem Showing.fgStep_wait (h : Showing P b l s) (hready : fgReady s = true) (hwait : s.seq.slotWait = true)
    (draw : BitVec 2) : ∃ b' l', Showing P b' l' (Machine.fgStep draw s) := by
  obtain ⟨b', l', -, -, hseq, hnext⟩ := h.inSlot.fgStep_wait hready hwait draw
  refine ⟨b', l', h.invariants.fgStep draw, hnext, h.fgStep_words draw,
    fun _ _ hchained htime => h.fgStep_chain hready draw hchained (fgStep_tcnt draw s ▸ htime),
    fun _ _ => h.fgStep_latch hready draw, fun hswitch => ?_⟩
  have hpass : waitPasses b' l' s.tcnt = true := by
    rw [fgReady, hseq] at hready
    exact hready
  rw [fgStep_fWait hseq, stepFWait_of_passes hpass] at hswitch
  cases hswitch

/-- And so does a tick inside the period. -/
theorem Showing.tickStep (h : Showing P b l s) (hready : fgReady s = false) (hin : s.tcnt + 1 < s.cfg.val.counterPeriod) :
    Showing P b l (tickStep s) := by
  have htcnt : (Machine.tickStep s).tcnt = s.tcnt + 1 := Nat.mod_eq_of_lt hin
  refine ⟨h.invariants.tickStep, h.inSlot.tickStep hready hin, fun L c htime => h.words L c ?_,
    fun c L hchained htime => h.chain c L hchained ?_, h.latch, h.light⟩
  · omega
  · omega

end

end Sys2Proof.Machine

namespace Sys2Proof.Machine

open Sys2Proof

/-! ### How far a position is from its slot's end -/

/-- A bound on the turns of the foreground that a position leaves in its slot, the next slot's wait included. -/
def MicroStep.stage : MicroStep → Nat
  | .fOff _ _ => 102
  | .fLatch _ _ => 101
  | .fOn _ _ => 100
  | .fUnmask => 99
  | .t0Read => 99
  | .t0Write => 98
  | .t1Gate => 99
  | .aBegin => 98
  | .aSpk i => 97 - i.val
  | .aSwp i => 97 - i.val
  | .aSwpEnd => 33
  | .aChs L k => 97 - (2 * L.val + k.val)
  | .aChsEnd => 33
  | .aFil i => 97 - i.val
  | .bSample _ => 99
  | .rb _ p => 30 - p.val
  | .loop => 4
  | .fMask => 3
  | .fShift _ _ => 2
  | .fWait _ _ => 1
  | _ => 0

theorem stage_afterOn_lt : ∀ b l, (afterOn b l).stage < 100 := by decide

theorem stage_afterRebuild_lt : ∀ l, (afterRebuild l).stage < 15 := by decide

theorem stage_firstOfAnimation_lt : ∀ id, (firstOfAnimation id).stage < 98 := by decide

/-- A turn that stays in the slot comes nearer to its end. -/
theorem Follows.stage_lt {m m' : MicroStep} (h : Follows m m') {x : Plane × Layer} (hslot : m.slot = some x)
    (hslot' : m'.slot = some x) (hwait : m.slotWait = false) : m'.stage < m.stage := by
  cases h with
  | loopOff => cases hslot'
  | fWait b l => cases hwait
  | fOn b l => exact stage_afterOn_lt b l
  | aBegin id => exact stage_firstOfAnimation_lt id
  | @rbLast p l => exact (stage_afterRebuild_lt l).trans_le (by simp only [MicroStep.stage]; omega)
  | bSample k a =>
    match k with
    | .idle => cases hslot
    | .frame =>
      cases a with
      | exit => decide
      | _ => cases hslot'
  | bOff | bOn | bClr | bClrLast | bARead | bAWrite | iOff | iWait => cases hslot
  | aSpk hnext | aSwp hnext | aFil hnext | aChsSet hnext | rb _ hnext =>
    have := nextIn_eq_some.mp hnext
    simp only [MicroStep.stage]
    omega
  | _ => simp only [MicroStep.stage]; omega

/-! ### The light still to come -/

/-- The ticks from counter value `τ` on in which a voxel of layer `L` at output `k` is lit: of each slot of a set bit of
the layer, what is left. -/
def litLeft (period : Nat) (P : Layer → Plane → Word) (L : Layer) (k : Pos) (τ : Nat) : Nat :=
  ∑ c : Plane, if (P L c).getLsbD k.val then slotEnd period c L - max (threshold L c) τ else 0

/-- The slots come one after another. -/
theorem slotEnd_le_threshold (period : Nat) {b c : Plane} {l L : Layer}
    (h : 4 * b.val + l.val < 4 * c.val + L.val) : slotEnd period b l ≤ threshold L c := by
  have hlast : ¬(b = 6 ∧ l = 3) := by
    rintro ⟨rfl, rfl⟩
    have hb : ((6 : Plane) : Nat) = 6 := rfl
    have hl : ((3 : Layer) : Nat) = 3 := rfl
    omega
  rw [slotEnd, slotTicks, if_neg hlast]
  revert b c l L
  decide

/-- No counter value is in two slots. -/
theorem slot_unique {period τ : Nat} {b c : Plane} {l L : Layer} (hstart : threshold l b ≤ τ)
    (hend : τ < slotEnd period b l) (hstart' : threshold L c ≤ τ) (hend' : τ < slotEnd period c L) : c = b ∧ L = l := by
  have hle : ¬4 * b.val + l.val < 4 * c.val + L.val := fun h => by
    have := slotEnd_le_threshold period h
    omega
  have hge : ¬4 * c.val + L.val < 4 * b.val + l.val := fun h => by
    have := slotEnd_le_threshold period h
    omega
  exact ⟨Fin.ext (by omega), Fin.ext (by omega)⟩

/-- A tick in slot (b,l) takes one from the light left of the slot's layer, if the slot's bit is set. -/
theorem litLeft_tick {period τ : Nat} (P : Layer → Plane → Word) (k : Pos) {b : Plane} {l : Layer}
    (hstart : threshold l b ≤ τ) (hend : τ < slotEnd period b l) (L : Layer) : litLeft period P L k τ =
      (if L = l ∧ (P l b).getLsbD k.val = true then 1 else 0) + litLeft period P L k (τ + 1) := by
  have hterm : ∀ c : Plane, (if (P L c).getLsbD k.val then slotEnd period c L - max (threshold L c) τ else 0) =
      (if c = b then (if L = l ∧ (P l b).getLsbD k.val = true then 1 else 0) else 0) +
        (if (P L c).getLsbD k.val then slotEnd period c L - max (threshold L c) (τ + 1) else 0) := by
    intro c
    by_cases hsame : c = b ∧ L = l
    · obtain ⟨rfl, rfl⟩ := hsame
      cases (P L c).getLsbD k.val
      · simp
      · simp only [if_true, and_self]
        omega
    · have hout : slotEnd period c L - max (threshold L c) τ = slotEnd period c L - max (threshold L c) (τ + 1) := by
        have hwindow : ¬(threshold L c ≤ τ ∧ τ < slotEnd period c L) := fun hin =>
          hsame (slot_unique hstart hend hin.1 hin.2)
        omega
      have hzero : (if c = b then (if L = l ∧ (P l b).getLsbD k.val = true then 1 else 0) else 0) = 0 := by
        split
        · exact if_neg fun hbit => hsame ⟨‹_›, hbit.1⟩
        · rfl
      rw [hout, hzero, Nat.zero_add]
  simp only [litLeft, hterm, Finset.sum_add_distrib, Finset.sum_ite_eq', Finset.mem_univ, if_true]

/-- No slot ends after the counter's period. -/
theorem slotEnd_le {period : Nat} (h : 444 < period) (b : Plane) (l : Layer) : slotEnd period b l ≤ period := by
  by_cases hlast : b = 6 ∧ l = 3
  · obtain ⟨rfl, rfl⟩ := hlast
    exact (slotEnd_last h).le
  · have hbefore : 4 * b.val + l.val < 4 * (6 : Plane).val + (3 : Layer).val := by revert b l; decide
    exact ((slotEnd_le_threshold period hbefore).trans (threshold_le 3 6)).trans h.le

theorem litLeft_end {period : Nat} (h : 444 < period) (P : Layer → Plane → Word) (L : Layer) (k : Pos) :
    litLeft period P L k period = 0 := by
  refine Finset.sum_eq_zero fun c _ => ?_
  have hend := slotEnd_le h c L
  split
  · omega
  · rfl

/-! ### The rest of a frame -/

/-- The ideal run under these draws leads from inside a frame that shows `P` to the next frame's start. -/
structure Completes (P : Layer → Plane → Word) (draws : List (BitVec 2)) (s : State) : Prop where
  atWait : (idealRun draws s).seq = .fWait 0 0
  atZero : (idealRun draws s).tcnt = 0
  ticks : idealTicks draws s = s.cfg.val.counterPeriod - s.tcnt
  light : ∀ L p, idealLitTicks L p draws s = litLeft s.cfg.val.counterPeriod P L (s.cfg.val.wire p) s.tcnt

section

variable {P : Layer → Plane → Word} {b : Plane} {l : Layer} {s : State} {draw : BitVec 2} {draws : List (BitVec 2)}

/-- A turn of the foreground takes no time. -/
theorem Completes.cons_ready (hready : fgReady s = true) (h : Completes P draws (fgStep draw s)) :
    Completes P (draw :: draws) s := by
  obtain ⟨hwait, hzero, hticks, hlight⟩ := h
  have hstep := idealStep_of_ready hready draw
  have hidle : idealTick s = false := by rw [idealTick, hready]; rfl
  rw [fgStep_tcnt, fgStep_cfg] at hticks
  refine ⟨?_, ?_, ?_, fun L p => ?_⟩
  · rwa [idealRun, List.foldl_cons, hstep]
  · rwa [idealRun, List.foldl_cons, hstep]
  · rw [idealTicks, hidle, hstep, hticks]
    exact Nat.zero_add _
  · rw [idealLitTicks, hidle, hstep, hlight L p, fgStep_tcnt, fgStep_cfg]
    exact Nat.zero_add _

/-- A tick lights the voxels of the slot's layer whose bit is set. -/
theorem Showing.lit_iff (h : Showing P b l s) (hready : fgReady s = false) (L : Layer) (p : Pos) :
    (idealTick s && lit s L p) = true ↔ L = l ∧ (P l b).getLsbD (s.cfg.val.wire p).val = true := by
  have hswitch : s.seq.switching = false := by
    obtain ⟨b', l', hseq, -⟩ := h.inSlot.wait_of_slotWait (h.inSlot.slotWait_of_not_ready hready)
    rw [hseq]
    rfl
  obtain ⟨hout, hen⟩ := h.light hswitch
  rw [idealTick, hready, lit, hen, hout]
  simp

/-- A tick takes one from what is left, if the voxel is lit. -/
theorem Showing.litLeft_tick (h : Showing P b l s) (hready : fgReady s = false) (L : Layer) (p : Pos) :
    litLeft s.cfg.val.counterPeriod P L (s.cfg.val.wire p) s.tcnt = (if idealTick s && lit s L p then 1 else 0) +
      litLeft s.cfg.val.counterPeriod P L (s.cfg.val.wire p) (s.tcnt + 1) := by
  rw [Machine.litLeft_tick P _ h.inSlot.fromStart (h.inSlot.lt_slotEnd hready)]
  simp only [h.lit_iff hready]

/-- A tick inside the period is one of the frame's. -/
theorem Completes.cons_tick (hs : Showing P b l s) (hready : fgReady s = false)
    (hin : s.tcnt + 1 < s.cfg.val.counterPeriod) (h : Completes P draws (tickStep s)) :
    Completes P (draw :: draws) s := by
  obtain ⟨hwait, hzero, hticks, hlight⟩ := h
  have hstep := idealStep_of_held hready draw
  have htick : idealTick s = true := by rw [idealTick, hready]; rfl
  have htcnt : (tickStep s).tcnt = s.tcnt + 1 := Nat.mod_eq_of_lt hin
  have hcfg : (tickStep s).cfg = s.cfg := rfl
  rw [htcnt, hcfg] at hticks
  refine ⟨?_, ?_, ?_, fun L p => ?_⟩
  · rwa [idealRun, List.foldl_cons, hstep]
  · rwa [idealRun, List.foldl_cons, hstep]
  · rw [idealTicks, htick, hstep, hticks, if_pos rfl]
    omega
  · rw [idealLitTicks, hstep, hlight L p, htcnt, hcfg, hs.litLeft_tick hready]

/-- The tick that wraps the counter is the frame's last. -/
theorem Showing.completes_wrap (hs : Showing P b l s) (hready : fgReady s = false)
    (hwrap : s.tcnt + 1 = s.cfg.val.counterPeriod) : Completes P [draw] s := by
  obtain ⟨hseq, hzero⟩ := hs.inSlot.tickStep_wrap hready hwrap
  have hstep := idealStep_of_held hready draw
  have htick : idealTick s = true := by rw [idealTick, hready]; rfl
  refine ⟨?_, ?_, ?_, fun L p => ?_⟩
  · rw [idealRun, List.foldl_cons, hstep]
    exact hseq
  · rw [idealRun, List.foldl_cons, hstep]
    exact hzero
  · rw [idealTicks, htick, idealTicks, ← hwrap, if_pos rfl]
    omega
  · rw [idealLitTicks, idealLitTicks, hs.litLeft_tick hready, hwrap, litLeft_end (lt_counterPeriod s.cfg)]

/-! ### The frame ends -/

/-- The counter is about to wrap in front of the next frame. -/
def Wraps (s : State) : Prop := fgReady s = false ∧ s.tcnt + 1 = s.cfg.val.counterPeriod

theorem InSlot.lt_of_not_wraps (h : InSlot b l s) (hready : fgReady s = false) (hwraps : ¬Wraps s) :
    s.tcnt + 1 < s.cfg.val.counterPeriod :=
  Nat.lt_of_le_of_ne (Nat.succ_le_of_lt h.inPeriod) fun hwrap => hwraps ⟨hready, hwrap⟩

theorem Showing.idealStep (h : Showing P b l s) (hwraps : ¬Wraps s) (draw : BitVec 2) :
    ∃ b' l', Showing P b' l' (idealStep s draw) := by
  cases hready : fgReady s with
  | true =>
    rw [idealStep_of_ready hready]
    cases hwait : s.seq.slotWait with
    | true => exact h.fgStep_wait hready hwait draw
    | false => exact ⟨b, l, h.fgStep hready hwait draw⟩
  | false =>
    rw [idealStep_of_held hready]
    exact ⟨b, l, h.tickStep hready (h.inSlot.lt_of_not_wraps hready hwraps)⟩

theorem Showing.completes_cons (hs : Showing P b l s) (hwraps : ¬Wraps s)
    (h : Completes P draws (Machine.idealStep s draw)) : Completes P (draw :: draws) s := by
  cases hready : fgReady s with
  | true => exact .cons_ready hready (idealStep_of_ready hready draw ▸ h)
  | false =>
    exact .cons_tick hs hready (hs.inSlot.lt_of_not_wraps hready hwraps) (idealStep_of_held hready draw ▸ h)

/-- A bound on the steps to the end of the frame from inside slot (b,l). -/
def stepsLeft (b : Plane) (l : Layer) (s : State) : Nat :=
  102 * (27 - (4 * b.val + l.val)) + s.seq.stage + (s.cfg.val.counterPeriod - s.tcnt)

/-- The slot after a slot. -/
theorem index_of_before : ∀ (b : Plane) (l : Layer), ¬(b = 0 ∧ l = 0) →
    4 * b.val + l.val = 4 * (slotBefore b l).1.val + (slotBefore b l).2.val + 1 := by decide

/-- Each step of the ideal run comes nearer to the end of the frame. -/
theorem InSlot.stepsLeft_idealStep (h : InSlot b l s) (hwraps : ¬Wraps s) (draw : BitVec 2) :
    ∃ b' l', InSlot b' l' (Machine.idealStep s draw) ∧ stepsLeft b' l' (Machine.idealStep s draw) < stepsLeft b l s := by
  cases hready : fgReady s with
  | true =>
    rw [idealStep_of_ready hready]
    cases hwait : s.seq.slotWait with
    | true =>
      obtain ⟨b', l', hfirst, hbefore, hseq, hnext⟩ := h.fgStep_wait hready hwait draw
      have hindex := index_of_before b' l' hfirst
      simp only [hbefore] at hindex
      have hpass : waitPasses b' l' s.tcnt = true := by
        rw [fgReady, hseq] at hready
        exact hready
      have hoff : (Machine.fgStep draw s).seq = .fOff b' l' := by
        rw [fgStep_fWait hseq, stepFWait_of_passes hpass, goto_seq]
      refine ⟨b', l', hnext, ?_⟩
      simp only [stepsLeft, hoff, hseq, MicroStep.stage, fgStep_tcnt, fgStep_cfg]
      omega
    | false =>
      have hnext := h.fgStep hready hwait draw
      have hstage := (follows_fgStep hready draw).stage_lt h.slot hnext.slot hwait
      refine ⟨b, l, hnext, ?_⟩
      simp only [stepsLeft, fgStep_tcnt, fgStep_cfg]
      omega
  | false =>
    rw [idealStep_of_held hready]
    have hin := h.lt_of_not_wraps hready hwraps
    have htcnt : (Machine.tickStep s).tcnt = s.tcnt + 1 := Nat.mod_eq_of_lt hin
    have hseq : (Machine.tickStep s).seq = s.seq := rfl
    have hcfg : (Machine.tickStep s).cfg = s.cfg := rfl
    refine ⟨b, l, h.tickStep hready hin, ?_⟩
    simp only [stepsLeft, htcnt, hseq, hcfg]
    omega

theorem wraps_iff_of_control {s t : State} (h : s.control = t.control) : Wraps s ↔ Wraps t :=
  iff_of_eq (congrArg Wraps h : Wraps s.control = Wraps t.control)

end

/-- From inside a slot a number of steps that the control alone fixes leads to the next frame's start. -/
theorem InSlot.completes {b : Plane} {l : Layer} {s : State} (h : InSlot b l s) (P : Layer → Plane → Word) :
    ∃ n, ∀ t b' l', t.control = s.control → Showing P b' l' t →
      ∀ draws : List (BitVec 2), draws.length = n → Completes P draws t := by
  by_cases hwraps : Wraps s
  · refine ⟨1, fun t b' l' hcontrol ht draws hlength => ?_⟩
    obtain ⟨draw, rfl⟩ := List.length_eq_one_iff.mp hlength
    obtain ⟨hready, hwrap⟩ := (wraps_iff_of_control hcontrol).mpr hwraps
    exact ht.completes_wrap hready hwrap
  · obtain ⟨b₁, l₁, hnext, hless⟩ := h.stepsLeft_idealStep hwraps 0
    obtain ⟨n, hn⟩ := hnext.completes P
    refine ⟨n + 1, fun t b' l' hcontrol ht draws hlength => ?_⟩
    obtain ⟨draw, draws, rfl⟩ := List.exists_cons_of_length_eq_add_one hlength
    have htwraps : ¬Wraps t := fun hwrap => hwraps ((wraps_iff_of_control hcontrol).mp hwrap)
    obtain ⟨b₂, l₂, htnext⟩ := ht.idealStep htwraps draw
    exact ht.completes_cons htwraps
      (hn _ b₂ l₂ (control_idealStep hcontrol draw 0) htnext draws (Nat.succ.inj hlength))
termination_by stepsLeft b l s

/-! ### A frame from its start -/

/-- The state in which a frame's first slot starts: four turns after the frame's start, whatever the oracle answers. -/
def firstSlot (s : State) : State := stepFWait 0 0 (stepFShift 0 0 (stepFMask (stepLoop s)))

section

variable {s : State}

theorem FrameStart.stepLoop_seq (h : FrameStart s) : (stepLoop s).seq = .fMask := by
  rw [stepLoop, h.poweredOn]
  rfl

theorem FrameStart.firstSlot_eq (h : FrameStart s) : firstSlot s =
    (noteLate 0 0 (stepFShift 0 0 (stepFMask (stepLoop s)))).goto (.fOff 0 0) :=
  stepFWait_of_passes ((waitPasses_first _).mpr h.atZero)

/-- The first slot starts after the four turns that lead into the frame. -/
theorem FrameStart.completes (h : FrameStart s) {P : Layer → Plane → Word} {draws : List (BitVec 2)}
    (hrest : Completes P draws (firstSlot s)) (d₁ d₂ d₃ d₄ : BitVec 2) :
    Completes P (d₁ :: d₂ :: d₃ :: d₄ :: draws) s := by
  have hmask := h.stepLoop_seq
  refine .cons_ready h.leadIn.ready ?_
  rw [fgStep_loop h.atLoop]
  refine .cons_ready (by rw [fgReady, hmask]) ?_
  rw [fgStep_fMask hmask]
  refine .cons_ready rfl ?_
  rw [fgStep_fShift rfl]
  refine .cons_ready ((waitPasses_first _).mpr h.atZero) ?_
  rwa [fgStep_fWait rfl]

theorem FrameStart.firstSlot_invariants (h : FrameStart s) (hinv : Invariants s) : Invariants (firstSlot s) := by
  have hmasked : Invariants (stepFMask (stepLoop s)) :=
    fgStep_fMask h.stepLoop_seq 0 ▸ (hinv.stepLoop h.atLoop).fgStep 0
  have hshift : (stepFMask (stepLoop s)).seq = .fShift 0 0 := rfl
  have hshifted : Invariants (stepFShift 0 0 (stepFMask (stepLoop s))) := fgStep_fShift hshift 0 ▸ hmasked.fgStep 0
  exact hshifted.stepFWait rfl

theorem FrameStart.firstSlot_inSlot (h : FrameStart s) : InSlot 0 0 (firstSlot s) := by
  rw [h.firstSlot_eq, noteLate_first]
  exact ⟨h.poweredOn, h.released, rfl, Nat.zero_le _, h.atZero.trans_le (Nat.zero_le _),
    h.atZero.trans_lt (Nat.zero_lt_of_lt (lt_counterPeriod s.cfg)), fun _ => h.atZero⟩

/-- In its first slot a frame shows the words that stood at its start. -/
theorem FrameStart.showing (h : FrameStart s) (hinv : Invariants s) : Showing s.plane 0 0 (firstSlot s) := by
  refine ⟨h.firstSlot_invariants hinv, h.firstSlot_inSlot, ?_, ?_, ?_, ?_⟩ <;> rw [h.firstSlot_eq, noteLate_first]
  · exact fun _ _ _ => rfl
  · rintro c L hchained -
    obtain ⟨rfl, rfl⟩ := Prod.mk.inj (Option.some.inj hchained)
    rfl
  · exact fun _ _ hlatched => nomatch hlatched
  · exact fun hswitch => nomatch hswitch

/-- A frame from its start takes a number of steps that no draw changes. -/
theorem FrameStart.exists_completes (h : FrameStart s) (hinv : Invariants s) :
    ∃ n, ∀ draws : List (BitVec 2), draws.length = n → Completes s.plane draws s := by
  obtain ⟨n, hn⟩ := h.firstSlot_inSlot.completes s.plane
  refine ⟨n + 4, fun draws hlength => ?_⟩
  match draws, hlength with
  | d₁ :: d₂ :: d₃ :: d₄ :: draws, hlength =>
    refine h.completes (hn _ 0 0 rfl (h.showing hinv) draws ?_) d₁ d₂ d₃ d₄
    simpa using hlength

end

/-! ### The light of a whole frame -/

/-- From the frame's start the light left is that of whole slots. -/
theorem litLeft_zero (period : Nat) (P : Layer → Plane → Word) (L : Layer) (k : Pos) {v : Byte}
    (hbits : ∀ b : Plane, (P L b).getLsbD k.val = v.getLsbD b.val) : litLeft period P L k 0 =
      ((List.finRange 7).map fun b : Plane => if v.getLsbD b.val then slotTicks period L b else 0).sum := by
  rw [litLeft, Fin.sum_univ_def]
  refine congrArg List.sum (List.map_congr_left fun b _ => ?_)
  rw [hbits, Nat.max_zero, slotEnd, Nat.add_sub_cancel_left]

/-- At COUNTER_PERIOD 508 the last slot, too, takes its weight. -/
theorem slotTicks_508 : ∀ L b, slotTicks 508 L b = 2 ^ b.val := by decide

/-- The weights of the low seven bits. -/
theorem sum_weights (v : Byte) :
    ((List.finRange 7).map fun b : Plane => if v.getLsbD b.val then 2 ^ b.val else 0).sum = v.toNat % 128 := by
  revert v
  decide

/-- Settles O59: by `Showing` each tick of the frame takes one from the light left of the voxels lit, and the
counter's wrap, which ends the frame, leaves none. -/
theorem idealFrameIsExactModulation : Obligations.IdealFrameIsExactModulation := by
  intro s hinv hstart
  obtain ⟨n, hn⟩ := hstart.exists_completes hinv
  refine ⟨n, fun draws hlength => ?_⟩
  obtain ⟨hwait, hzero, hticks, hlight⟩ := hn draws hlength
  rw [hstart.atZero] at hticks
  refine ⟨hwait, hzero, hticks, fun L p v hbits => ?_⟩
  have hsum := hlight L p
  rw [hstart.atZero, litLeft_zero _ _ _ _ hbits] at hsum
  refine ⟨hsum, fun hperiod => ?_⟩
  rw [hsum, hperiod]
  simp only [slotTicks_508]
  exact sum_weights v

end Sys2Proof.Machine
